-- ==== Sys2Proof/Word.lean ====
section
/-! DEFINITION. The data types of HTC-CORE (00_scope.md R11, R12): bytes, 32-bit words, 16-byte blocks, the 128-bit counter. -/

namespace Sys2Proof

/-- A byte (R11). -/
abbrev Byte := BitVec 8

/-- A 32-bit word of the register window (R11). -/
abbrev Word := BitVec 32

/-- A 16-byte value `X[0] .. X[15]` (R11): a byte string of fixed length, `X[0]` the first byte. -/
abbrev Block := Vector Byte 16

/-- The value of CTR, `0 <= CTR < 2^128` (10_state.md R27). -/
abbrev Counter := BitVec 128

end Sys2Proof
end

