-- ==== Sys2Proof/Syntax.lean ====
section
/-! DEFINITION. The commands of HTC-CORE: one constructor per row of spec/opcode_table.json (30_encoding.md R71). -/

namespace Sys2Proof

/-- A command. The three length-using ones carry the LEN field, a 5-bit unsigned number that is not scaled or
offset (R69); every other command has LEN = 0. -/
inductive Instr where
  /-- NOP, OP 0 (44_control.md R130). -/
  | nop
  /-- CTR_CLR, OP 1 (44_control.md R131). -/
  | ctrClr
  /-- KEY_CLR, OP 2 (44_control.md R132). -/
  | keyClr
  /-- MD5, OP 3 (41_md5_pad.md R83). -/
  | md5
  /-- WHITEN n, OP 4 (42_whitener.md R101). -/
  | whiten (len : BitVec 5)
  /-- KSGEN, OP 5 (43_aes_ctr.md R120). -/
  | ksgen
  /-- CTRXOR n, OP 6 (43_aes_ctr.md R121). -/
  | ctrxor (len : BitVec 5)
  /-- CRYPT n, OP 7 (44_control.md R134). -/
  | crypt (len : BitVec 5)
  deriving DecidableEq, Repr

/-- The OP field of a command (R68, R71). -/
def Instr.op : Instr → BitVec 4
  | .nop => 0
  | .ctrClr => 1
  | .keyClr => 2
  | .md5 => 3
  | .whiten _ => 4
  | .ksgen => 5
  | .ctrxor _ => 6
  | .crypt _ => 7

/-- The LEN field of a command (R69). -/
def Instr.len : Instr → BitVec 5
  | .nop => 0
  | .ctrClr => 0
  | .keyClr => 0
  | .md5 => 0
  | .whiten len => len
  | .ksgen => 0
  | .ctrxor len => len
  | .crypt len => len

end Sys2Proof
end

