-- ==== Sys2Proof/WellFormed.lean ====
section
/-! DEFINITION. Which commands are legal: the LEN of a length-using command is in 1..16 (30_encoding.md R69, R72). -/

namespace Sys2Proof

/-- The legal LEN values of WHITEN, CTRXOR and CRYPT (R69). -/
def legalLen (len : BitVec 5) : Bool := decide (1 ≤ len.toNat ∧ len.toNat ≤ 16)

/-- One of the 53 legal commands of R72. -/
def Instr.wellFormed : Instr → Bool
  | .nop => true
  | .ctrClr => true
  | .keyClr => true
  | .md5 => true
  | .whiten len => legalLen len
  | .ksgen => true
  | .ctrxor len => legalLen len
  | .crypt len => legalLen len

end Sys2Proof
end

