-- ==== Sys2Proof/Decode.lean ====
section
/-! DEFINITION. The decoder of 30_encoding.md R76, the encoder written from R67 and R72, and the opcode table
(spec/opcode_table.json) as a list of mask and match rows. -/

namespace Sys2Proof

/-- What the decoder answers (R76): a command, or one of the two refusals by name. -/
inductive Verdict where
  /-- `Cmd(op, len)`: one of the 53 legal words. -/
  | cmd (i : Instr)
  /-- `Illegal`: RSVD set, OP reserved, or LEN on a command that has none; raises ERR_ILLEGAL. -/
  | illegal
  /-- `BadLen`: LEN outside 1..16 on a length-using command; raises ERR_LEN. -/
  | badLen
  deriving DecidableEq, Repr

/-- OP, bits 3:0 of a command word (R67). -/
def opField (v : Word) : BitVec 4 := v.extractLsb' 0 4

/-- LEN, bits 8:4 of a command word (R67, R69). -/
def lenField (v : Word) : BitVec 5 := v.extractLsb' 4 5

/-- RSVD, bits 31:9 of a command word (R67, R70). -/
def rsvdField (v : Word) : BitVec 23 := v.extractLsb' 9 23

/-- A command without operand is legal only with LEN = 0 (R69, R73). -/
def decodeFixed (i : Instr) (len : BitVec 5) : Verdict :=
  if len ≠ 0#5 then .illegal else .cmd i

/-- A length-using command is legal only with LEN in 1..16 (R69). -/
def decodeSized (i : BitVec 5 → Instr) (len : BitVec 5) : Verdict :=
  if legalLen len then .cmd (i len) else .badLen

/-- `Decode(v)` of R76, total on the 2^32 words: Illegal is checked before BadLen. -/
def decode (v : Word) : Verdict :=
  if rsvdField v ≠ 0#23 then .illegal
  else
    match (opField v).toNat with
    | 0 => decodeFixed .nop (lenField v)
    | 1 => decodeFixed .ctrClr (lenField v)
    | 2 => decodeFixed .keyClr (lenField v)
    | 3 => decodeFixed .md5 (lenField v)
    | 4 => decodeSized .whiten (lenField v)
    | 5 => decodeFixed .ksgen (lenField v)
    | 6 => decodeSized .ctrxor (lenField v)
    | 7 => decodeSized .crypt (lenField v)
    | _ => .illegal

/-- The command of a legal word, `none` where the decoder refuses the word. -/
def Verdict.toInstr? : Verdict → Option Instr
  | .cmd i => some i
  | .illegal => none
  | .badLen => none

/-- The word of a command: RSVD = 0, LEN, OP (R67, R72). -/
def encode (i : Instr) : Word := 0#23 ++ i.len ++ i.op

/-- The command word that `nbits` bits `w` of an opcode table row stand for; every bit above `nbits` is 0. -/
def tableWord (nbits w : Nat) : Word := BitVec.ofNat 32 (w % 2 ^ nbits)

/-- The command the decoder reads from an opcode table row's bits. -/
def decodeTableWord (nbits w : Nat) : Option Instr := (decode (tableWord nbits w)).toInstr?

/-- A row of spec/opcode_table.json: the words `v` with `v &&& mask = value` are the row's. -/
structure OpcodeRow where
  mnemonic : String
  mask : Word
  value : Word
  deriving DecidableEq, Repr

/-- The rows of spec/opcode_table.json. -/
def opcodeRows : List OpcodeRow :=
  [⟨"NOP", 0xFFFFFFFF, 0x00000000⟩, ⟨"CTR_CLR", 0xFFFFFFFF, 0x00000001⟩,
   ⟨"KEY_CLR", 0xFFFFFFFF, 0x00000002⟩, ⟨"MD5", 0xFFFFFFFF, 0x00000003⟩,
   ⟨"WHITEN", 0xFFFFFE0F, 0x00000004⟩, ⟨"KSGEN", 0xFFFFFFFF, 0x00000005⟩,
   ⟨"CTRXOR", 0xFFFFFE0F, 0x00000006⟩, ⟨"CRYPT", 0xFFFFFE0F, 0x00000007⟩]

/-- A word is one of a row's words. -/
def OpcodeRow.covers (r : OpcodeRow) (v : Word) : Bool := v &&& r.mask == r.value

/-- The mnemonic of a command (R77). -/
def Instr.mnemonic : Instr → String
  | .nop => "NOP"
  | .ctrClr => "CTR_CLR"
  | .keyClr => "KEY_CLR"
  | .md5 => "MD5"
  | .whiten _ => "WHITEN"
  | .ksgen => "KSGEN"
  | .ctrxor _ => "CTRXOR"
  | .crypt _ => "CRYPT"

/-- The 16 words `op | n << 4`, `n` in 1..16, of a length-using command (R72). -/
def sizedWords (op : Word) : List Word :=
  (List.range' 1 16).map fun n => op ||| BitVec.ofNat 32 n <<< 4

/-- The 53 legal command words, listed as R72 lists them. -/
def legalWords : List Word :=
  ([0x00000000, 0x00000001, 0x00000002, 0x00000003, 0x00000005] : List Word) ++
    sizedWords 0x00000004 ++ sizedWords 0x00000006 ++ sizedWords 0x00000007

end Sys2Proof
end

