-- ==== Sys2Proof/Machine/Bytes.lean ====
section
/-! DEFINITION. Byte strings, words and the counter: the conversions of 00_scope.md R12 and the word packing of
20_memory.md R47. -/

namespace Sys2Proof.Machine

/-- 16 zero bytes. -/
def zeroBlock : Block := Vector.replicate 16 0

/-- `a XOR b` on byte strings works byte by byte (R12). -/
def xorBlock (a b : Block) : Block := Vector.ofFn fun i => a[i] ^^^ b[i]

/-- `le32` of the four bytes `b0 b1 b2 b3` (R12, R47): `b0` is the least significant byte. -/
def le32 (b0 b1 b2 b3 : Byte) : Word :=
  b0.setWidth 32 ||| b1.setWidth 32 <<< 8 ||| b2.setWidth 32 <<< 16 ||| b3.setWidth 32 <<< 24

/-- Byte `j` of `le32^-1(v)`: `v[8j+7 : 8j]` (R12, R47). -/
def wordByte (v : Word) (j : Nat) : Byte := v.extractLsb' (8 * j) 8

/-- `word_k(X) = le32(X[4k .. 4k+3])` (R47). -/
def wordOf (X : Block) (k : Fin 4) : Word :=
  le32 X[4 * k.val] X[4 * k.val + 1] X[4 * k.val + 2] X[4 * k.val + 3]

/-- `X[4k .. 4k+3] <- le32^-1(v)`, every other byte kept (R47). -/
def setWord (X : Block) (k : Fin 4) (v : Word) : Block :=
  Vector.ofFn fun i => if i.val / 4 = k.val then wordByte v (i.val % 4) else X[i]

/-- The block whose words are `w 0 .. w 3` in the packing of R47. -/
def blockOfWords (w : Fin 4 → Word) : Block :=
  Vector.ofFn fun i => wordByte (w ⟨i.val / 4, by omega⟩) (i.val % 4)

/-- `be128(n)`: `X[0]` is the most significant byte (R12). -/
def be128 (n : Counter) : Block := Vector.ofFn fun i => n.extractLsb' (8 * (15 - i.val)) 8

/-- `int_be(X)`, the inverse of `be128` (R12). -/
def intBe (X : Block) : Counter := X.toList.foldl (fun n b => n <<< 8 ||| b.setWidth 128) 0

/-- `rotl_32(x, s)` (R12). -/
def rotl32 (x : Word) (s : Nat) : Word := x <<< s ||| x >>> (32 - s)

end Sys2Proof.Machine
end

