-- ==== Sys2Proof/Config.lean ====
section
/-! DEFINITION. The implementation parameters of 00_scope.md R7. `LATENCY(op)` is no constant here: the
`inputs` of State say where each completion falls (log entry 2). -/

namespace Sys2Proof.Config

/-- `ID_VALUE` (R7, 10_state.md R23): what the read-only ID register returns. -/
def idValue : Word := 0x48544301

/-- `WINDOW_BYTES` (R7, 20_memory.md R45). -/
def windowBytes : Nat := 0x60

/-- Which multiple of 0x80 the platform puts the window at: OPEN in the spec (R7, R58, D4), so it has no body. -/
opaque baseIndex : Nat

/-- `BASE` (R7): any address aligned to 0x80. -/
def base : Nat := 0x80 * baseIndex

end Sys2Proof.Config
end

