-- ==== Sys2Proof/Machine/State.lean ====
section
/-! DEFINITION. The state of HTC-CORE (10_state.md R20, R38), what the outside world can do to it, and the reasons a
step can stop. -/

namespace Sys2Proof.Machine

/-- The width of a host access (20_memory.md R53). -/
inductive AccessWidth where
  | bits8
  | bits16
  | bits32
  | bits64
  deriving DecidableEq, Repr

/-- A host access reads, or writes a word (00_scope.md R9). A write of another width than 32 bits never reaches a
register, so only a 32-bit write's data is kept (R53, log entry 11). -/
inductive AccessKind where
  | read
  | write (v : Word)
  deriving DecidableEq, Repr

/-- One host access that the platform decodes to the window: at `BASE + off` (20_memory.md R45, R54). -/
structure Access where
  width : AccessWidth
  off : Nat
  kind : AccessKind
  deriving DecidableEq, Repr

/-- What happens next outside the program of the engine: the interleaving that 20_memory.md R60 and
70_reset_and_hazards.md R179 leave open, as plain data (log entry 2). -/
inductive Input where
  /-- The host makes one access (R9). -/
  | access (a : Access)
  /-- The host makes no access and the engine takes its step, if a command is pending (R175). -/
  | engine
  /-- RST is asserted, or power is removed and applied (R164, 60_exceptions.md R161). -/
  | rst
  deriving DecidableEq, Repr

/-- The bus's answer to an access (10_state.md R43): the word a read returns, the OKAY of a write, or the error
response of 20_memory.md R54. -/
inductive Response where
  | data (w : Word)
  | okay
  | error
  deriving DecidableEq, Repr

/-- The state of HTC-CORE: the twelve items of R20, then the model's own two fields (log entries 2 and 5). -/
structure State where
  /-- KEY, the AES-128 cipher key (R26). -/
  key : Block
  /-- KEY_WMASK: bit `k` is set once KEYk has been written (R26). -/
  keyWmask : BitVec 4
  /-- CTR (R27). -/
  ctr : Counter
  /-- CTR_WRAP (R28). -/
  ctrWrap : Bool
  /-- DIN (R29). -/
  din : Block
  /-- DOUT (R31). -/
  dout : Block
  /-- PAD (R30). -/
  pad : Block
  /-- PAD_VALID (R30). -/
  padValid : Bool
  /-- BUSY (R32). -/
  busy : Bool
  /-- DONE (R32). -/
  done : Bool
  /-- ERR (R33). -/
  err : BitVec 4
  /-- PENDING (R34): the accepted command, its (OP, LEN) pair held decoded (log entry 6). -/
  pending : Option Instr
  /-- The MODEL's own field: what the outside world does next, oldest first. -/
  inputs : List Input
  /-- The MODEL's own field: what the bus has answered, newest first. -/
  responses : List Response
  deriving DecidableEq, Repr

/-- The reasons of a fault. -/
inductive Fault where
  /-- Raised by the host's own step (`hostAccess`) for an access that the window does not accept (20_memory.md R54). The
  core's step raises no fault: it answers with the error response, changes no state, and the engine goes on (log entry
  4). Safe: a host that goes on after the error is the core's step and the same inputs. -/
  | busError (a : Access)
  deriving DecidableEq, Repr

/-- Why an instruction has no meaning in this model. -/
inductive Refusal where
  /-- Raised by no arm of `exec`: every command has its meaning. Safe. -/
  | notModelled (mnemonic : String)
  deriving DecidableEq, Repr

/-- The state after reset: every item of R38 at the value that rule gives, nothing listed to happen, nothing
answered yet. -/
def State.reset : State where
  key := Vector.replicate 16 0
  keyWmask := 0#4
  ctr := 0#128
  ctrWrap := false
  din := Vector.replicate 16 0
  dout := Vector.replicate 16 0
  pad := Vector.replicate 16 0
  padValid := false
  busy := false
  done := false
  err := 0#4
  pending := none
  inputs := []
  responses := []

end Sys2Proof.Machine
end

