-- ==== Sys2Proof/Machine/Flags.lean ====
section
/-! DEFINITION. The status flags: STATUS (10_state.md R25), KEY_VALID (R26), the ERR codes (60_exceptions.md R145)
and what each command needs (30_encoding.md R71). -/

namespace Sys2Proof.Machine

/-- KEY_VALID: all four KEYk words have been written (R26). -/
def State.keyValid (s : State) : Bool := s.keyWmask == 0b1111#4

/-- The command errors (60_exceptions.md R145). -/
inductive CmdError where
  | illegal
  | key
  | len
  | pad
  | busy
  | ctr
  deriving DecidableEq, Repr

/-- The ERR code of a command error (R145). Code 0 is ERR_NONE, codes 7 to 15 are never produced (R154). -/
def CmdError.code : CmdError → BitVec 4
  | .illegal => 1#4
  | .key => 2#4
  | .len => 3#4
  | .pad => 4#4
  | .busy => 5#4
  | .ctr => 6#4

/-- A flag at bit `n` of a word. -/
def flagBit (b : Bool) (n : Nat) : Word := (BitVec.ofBool b).setWidth 32 <<< n

/-- `BusRead(0x08) = BUSY | DONE<<1 | KEY_VALID<<2 | PAD_VALID<<3 | CTR_WRAP<<4 | ERR<<8` (R25); every reserved bit and
ERR_CLR read 0. -/
def State.statusWord (s : State) : Word :=
  flagBit s.busy 0 ||| flagBit s.done 1 ||| flagBit s.keyValid 2 ||| flagBit s.padValid 3 ||| flagBit s.ctrWrap 4 |||
    s.err.setWidth 32 <<< 8

end Sys2Proof.Machine

namespace Sys2Proof

/-- The commands of the KEY check, OP in 5, 6, 7 (60_exceptions.md R147). -/
def Instr.needsKey : Instr → Bool
  | .nop => false
  | .ctrClr => false
  | .keyClr => false
  | .md5 => false
  | .whiten _ => false
  | .ksgen => true
  | .ctrxor _ => true
  | .crypt _ => true

/-- The commands of the PAD check, OP in 4, 7 (60_exceptions.md R147). -/
def Instr.needsPad : Instr → Bool
  | .nop => false
  | .ctrClr => false
  | .keyClr => false
  | .md5 => false
  | .whiten _ => true
  | .ksgen => false
  | .ctrxor _ => false
  | .crypt _ => true

/-- The counter-using commands, those of the CTR check, OP in 5, 6, 7 (10_state.md R28, 60_exceptions.md R147). -/
def Instr.usesCtr : Instr → Bool
  | .nop => false
  | .ctrClr => false
  | .keyClr => false
  | .md5 => false
  | .whiten _ => false
  | .ksgen => true
  | .ctrxor _ => true
  | .crypt _ => true

end Sys2Proof
end

