-- ==== Sys2Proof/Machine/Window.lean ====
section
/-! DEFINITION. The register map of 20_memory.md R46. -/

namespace Sys2Proof.Machine

/-- The 23 listed registers of the window (R46); `k` is the word of a 16-byte register. -/
inductive Reg where
  | id
  | cmd
  | status
  | key (k : Fin 4)
  | ctr (k : Fin 4)
  | din (k : Fin 4)
  | dout (k : Fin 4)
  | pad (k : Fin 4)
  deriving DecidableEq, Repr

/-- The offset of a register from BASE (R46). -/
def Reg.offset : Reg → Nat
  | .id => 0x00
  | .cmd => 0x04
  | .status => 0x08
  | .key k => 0x10 + 4 * k.val
  | .ctr k => 0x20 + 4 * k.val
  | .din k => 0x30 + 4 * k.val
  | .dout k => 0x40 + 4 * k.val
  | .pad k => 0x50 + 4 * k.val

/-- Every listed register, in the order of R46. -/
def Reg.all : List Reg :=
  [.id, .cmd, .status, .key 0, .key 1, .key 2, .key 3, .ctr 0, .ctr 1, .ctr 2, .ctr 3, .din 0, .din 1, .din 2, .din 3,
   .dout 0, .dout 1, .dout 2, .dout 3, .pad 0, .pad 1, .pad 2, .pad 3]

/-- The register an offset names; `none` for a reserved or misaligned offset (R46, R54). -/
def regAt (off : Nat) : Option Reg := Reg.all.find? fun r => r.offset == off

/-- The bus address of an access (R45). -/
def Access.address (a : Access) : Nat := Config.base + a.off

/-- `BusRead(off(r))`: an aligned 32-bit read (R48). -/
def Access.rd (r : Reg) : Access := ⟨.bits32, r.offset, .read⟩

/-- `BusWrite(off(r), v)`: an aligned 32-bit write (R49). -/
def Access.wr (r : Reg) (v : Word) : Access := ⟨.bits32, r.offset, .write v⟩

/-- The register an access reaches, `none` where the access is a bus error: another width than 32 bits, an offset
that is no multiple of 4, or a reserved offset (R53, R54). -/
def Access.target (a : Access) : Option Reg :=
  if a.width ≠ .bits32 then none
  else if a.off % 4 ≠ 0 then none
  else regAt a.off

end Sys2Proof.Machine
end

