-- ==== Sys2Proof/Machine/Ops.lean ====
section
/-! DEFINITION. The shared operations: recording a command error and clearing it, accepting and completing a command,
the register writes, and the host's accesses. -/

namespace Sys2Proof.Machine

/-! ### Errors (60_exceptions.md R146, R152) -/

/-- `raise Error(c)`: ERR keeps the first error (R146). This is all there is to an exception's entry (R144). -/
def State.raiseError (c : CmdError) (s : State) : State :=
  { s with err := if s.err = 0#4 then c.code else s.err }

/-- ERR_CLR: the return from an error (R152). -/
def State.clearErr (s : State) : State := { s with err := 0#4 }

/-! ### Data registers -/

/-- A write of word `v` to KEYk (10_state.md R26): the key bytes and the write mask. -/
def State.loadKey (k : Fin 4) (v : Word) (s : State) : State :=
  { s with key := setWord s.key k v, keyWmask := s.keyWmask ||| 1#4 <<< k.val }

/-- A write of word `v` to DINk (R29). -/
def State.loadDin (k : Fin 4) (v : Word) (s : State) : State := { s with din := setWord s.din k v }

/-- `KEY <- 16 zero bytes; KEY_WMASK <- 0b0000` (44_control.md R132). -/
def State.clearKey (s : State) : State := { s with key := zeroBlock, keyWmask := 0#4 }

/-- `CTR <- 0; CTR_WRAP <- 0` (44_control.md R131). -/
def State.clearCtr (s : State) : State := { s with ctr := 0#128, ctrWrap := false }

/-- `Advance()` (43_aes_ctr.md R116): from 2^128 - 1 the counter goes to 0 and CTR_WRAP is set. -/
def State.advance (s : State) : State :=
  { s with
    ctr := if s.ctr = BitVec.allOnes 128 then 0#128 else s.ctr + 1#128
    ctrWrap := if s.ctr = BitVec.allOnes 128 then true else s.ctrWrap }

/-- A command's result goes to DOUT (R31). -/
def State.setDout (X : Block) (s : State) : State := { s with dout := X }

/-- `PAD <- X; PAD_VALID <- 1` (41_md5_pad.md R83). -/
def State.setPad (X : Block) (s : State) : State := { s with pad := X, padValid := true }

/-! ### The life of a command (70_reset_and_hazards.md R174) -/

/-- `PENDING <- none; BUSY <- 0; DONE <- 1`, part of every completion (R175). -/
def State.finish (s : State) : State := { s with pending := none, busy := false, done := true }

/-- A command is accepted: `PENDING <- (op, len); BUSY <- 1`, and DONE is 0 (10_state.md R32). -/
def State.accept (i : Instr) (s : State) : State := { s with pending := some i, busy := true, done := false }

/-- Any CMD write that is not ignored for BUSY sets `DONE <- 0` (10_state.md R32). -/
def State.clearDone (s : State) : State := { s with done := false }

/-- The first failing check of a decoded command, in the order KEY, PAD, CTR (60_exceptions.md R147). -/
def needError (i : Instr) (s : State) : Option CmdError :=
  if i.needsKey && !s.keyValid then some .key
  else if i.needsPad && !s.padValid then some .pad
  else if i.usesCtr && s.ctrWrap then some .ctr
  else none

/-- A decoded command is accepted, or rejected by its first failing check (R147). -/
def State.tryAccept (i : Instr) (s : State) : State :=
  match needError i s with
  | some c => s.raiseError c
  | none => s.accept i

/-- `IssueCommand(v)` (R147): a CMD write made while BUSY = 0. -/
def issueCommand (v : Word) (s : State) : State :=
  if s.err ≠ 0#4 then s.clearDone
  else
    match decode v with
    | .illegal => s.clearDone.raiseError .illegal
    | .badLen => s.clearDone.raiseError .len
    | .cmd i => s.clearDone.tryAccept i

/-! ### The host's accesses (20_memory.md R48 to R56) -/

/-- The value a read of a listed register returns (R48, R50). -/
def busRead (r : Reg) (s : State) : Word :=
  match r with
  | .id => Config.idValue
  | .cmd => 0
  | .status => s.statusWord
  | .key _ => 0
  | .ctr k => wordOf (be128 s.ctr) k
  | .din k => wordOf s.din k
  | .dout k => wordOf s.dout k
  | .pad k => wordOf s.pad k

/-- A write that BUSY gates: ignored with ERR_BUSY while a command is pending (R56). -/
def State.unlessBusy (s : State) (t : State) : State := if s.busy then s.raiseError .busy else t

/-- The effect of a write of word `v` to a listed register (R49). -/
def busWrite (r : Reg) (v : Word) (s : State) : State :=
  match r with
  | .id => s
  | .cmd => s.unlessBusy (issueCommand v s)
  | .status => if v.getLsbD 31 then s.clearErr else s
  | .key k => s.unlessBusy (s.loadKey k v)
  | .ctr _ => s
  | .din k => s.unlessBusy (s.loadDin k v)
  | .dout _ => s
  | .pad _ => s

/-- The bus answers an access. -/
def State.respond (r : Response) (s : State) : State := { s with responses := r :: s.responses }

/-- The effect and the answer of an access that reaches register `r` (R48, R49): a read changes no state, a write
answers OKAY. -/
def performAccess (k : AccessKind) (r : Reg) (s : State) : State :=
  match k with
  | .read => s.respond (.data (busRead r s))
  | .write v => (busWrite r v s).respond .okay

/-- One host access. Where the window does not accept it, the access ends with an error response and no state change
(R54, 00_scope.md R13), and nothing stops the engine (60_exceptions.md R142). -/
def busAccess (a : Access) (s : State) : State :=
  match a.target with
  | none => s.respond .error
  | some r => performAccess a.kind r s

/-! ### Reset (70_reset_and_hazards.md R164, R165) -/

/-- RST: every item of R38 takes its reset value in one step, also while a command is pending. -/
def State.takeReset (s : State) : State := { State.reset with inputs := s.inputs, responses := s.responses }

end Sys2Proof.Machine
end

