-- ==== Sys2Proof/Machine/Control.lean ====
section
/-! DEFINITION. The control commands NOP, CTR_CLR and KEY_CLR at completion (44_control.md R130 to R132). -/

namespace Sys2Proof.Machine

/-- NOP: `BUSY <- 0; DONE <- 1` (R130). -/
def execNop (s : State) : Host.Outcome State Fault Refusal := .next s.finish

/-- CTR_CLR: `CTR <- 0; CTR_WRAP <- 0; BUSY <- 0; DONE <- 1` (R131). -/
def execCtrClr (s : State) : Host.Outcome State Fault Refusal := .next s.clearCtr.finish

/-- KEY_CLR: `KEY <- 16 zero bytes; KEY_WMASK <- 0b0000; BUSY <- 0; DONE <- 1` (R132). -/
def execKeyClr (s : State) : Host.Outcome State Fault Refusal := .next s.clearKey.finish

end Sys2Proof.Machine
end

