-- ==== Sys2Proof/Machine/Aes.lean ====
section
/-! DEFINITION. AES-128 as 43_aes_ctr.md R106 to R113 define it: encryption only. The AES state `s[r][c]` is a block
whose byte `r + 4c` is row `r`, column `c` (00_scope.md R14). -/

namespace Sys2Proof.Machine

/-- A 4-byte word `(w0, w1, w2, w3)` of the key schedule (R14). -/
abbrev KeyWord := Vector Byte 4

/-- The S-box table of R107: row = high hex digit, column = low hex digit. -/
def sboxTable : List (List Byte) :=
  [[0x63, 0x7c, 0x77, 0x7b, 0xf2, 0x6b, 0x6f, 0xc5, 0x30, 0x01, 0x67, 0x2b, 0xfe, 0xd7, 0xab, 0x76],
   [0xca, 0x82, 0xc9, 0x7d, 0xfa, 0x59, 0x47, 0xf0, 0xad, 0xd4, 0xa2, 0xaf, 0x9c, 0xa4, 0x72, 0xc0],
   [0xb7, 0xfd, 0x93, 0x26, 0x36, 0x3f, 0xf7, 0xcc, 0x34, 0xa5, 0xe5, 0xf1, 0x71, 0xd8, 0x31, 0x15],
   [0x04, 0xc7, 0x23, 0xc3, 0x18, 0x96, 0x05, 0x9a, 0x07, 0x12, 0x80, 0xe2, 0xeb, 0x27, 0xb2, 0x75],
   [0x09, 0x83, 0x2c, 0x1a, 0x1b, 0x6e, 0x5a, 0xa0, 0x52, 0x3b, 0xd6, 0xb3, 0x29, 0xe3, 0x2f, 0x84],
   [0x53, 0xd1, 0x00, 0xed, 0x20, 0xfc, 0xb1, 0x5b, 0x6a, 0xcb, 0xbe, 0x39, 0x4a, 0x4c, 0x58, 0xcf],
   [0xd0, 0xef, 0xaa, 0xfb, 0x43, 0x4d, 0x33, 0x85, 0x45, 0xf9, 0x02, 0x7f, 0x50, 0x3c, 0x9f, 0xa8],
   [0x51, 0xa3, 0x40, 0x8f, 0x92, 0x9d, 0x38, 0xf5, 0xbc, 0xb6, 0xda, 0x21, 0x10, 0xff, 0xf3, 0xd2],
   [0xcd, 0x0c, 0x13, 0xec, 0x5f, 0x97, 0x44, 0x17, 0xc4, 0xa7, 0x7e, 0x3d, 0x64, 0x5d, 0x19, 0x73],
   [0x60, 0x81, 0x4f, 0xdc, 0x22, 0x2a, 0x90, 0x88, 0x46, 0xee, 0xb8, 0x14, 0xde, 0x5e, 0x0b, 0xdb],
   [0xe0, 0x32, 0x3a, 0x0a, 0x49, 0x06, 0x24, 0x5c, 0xc2, 0xd3, 0xac, 0x62, 0x91, 0x95, 0xe4, 0x79],
   [0xe7, 0xc8, 0x37, 0x6d, 0x8d, 0xd5, 0x4e, 0xa9, 0x6c, 0x56, 0xf4, 0xea, 0x65, 0x7a, 0xae, 0x08],
   [0xba, 0x78, 0x25, 0x2e, 0x1c, 0xa6, 0xb4, 0xc6, 0xe8, 0xdd, 0x74, 0x1f, 0x4b, 0xbd, 0x8b, 0x8a],
   [0x70, 0x3e, 0xb5, 0x66, 0x48, 0x03, 0xf6, 0x0e, 0x61, 0x35, 0x57, 0xb9, 0x86, 0xc1, 0x1d, 0x9e],
   [0xe1, 0xf8, 0x98, 0x11, 0x69, 0xd9, 0x8e, 0x94, 0x9b, 0x1e, 0x87, 0xe9, 0xce, 0x55, 0x28, 0xdf],
   [0x8c, 0xa1, 0x89, 0x0d, 0xbf, 0xe6, 0x42, 0x68, 0x41, 0x99, 0x2d, 0x0f, 0xb0, 0x54, 0xbb, 0x16]]

/-- `SBOX[x]` (R107). -/
def sbox (x : Byte) : Byte := (sboxTable.getD (x.toNat / 16) []).getD (x.toNat % 16) 0

/-- `xtime(b) = 0x02 • b` in GF(2^8) modulo 0x11B (R14). -/
def xtime (b : Byte) : Byte := b <<< 1 ^^^ (if b.getLsbD 7 then 0x1B else 0)

/-- `0x03 • b` (R110). -/
def times3 (b : Byte) : Byte := xtime b ^^^ b

/-- SubBytes (R108). -/
def subBytes (s : Block) : Block := Vector.ofFn fun i => sbox s[i]

/-- ShiftRows (R109): `s'[r][c] = s[r][(c + r) mod 4]`. -/
def shiftRows (s : Block) : Block :=
  Vector.ofFn fun i =>
    let r := i.val % 4
    let c := i.val / 4
    s[r + 4 * ((c + r) % 4)]

/-- The new column of R110, byte by byte. -/
def mixColumn (a0 a1 a2 a3 : Byte) : KeyWord :=
  #v[xtime a0 ^^^ times3 a1 ^^^ a2 ^^^ a3,
     a0 ^^^ xtime a1 ^^^ times3 a2 ^^^ a3,
     a0 ^^^ a1 ^^^ xtime a2 ^^^ times3 a3,
     times3 a0 ^^^ a1 ^^^ a2 ^^^ xtime a3]

/-- MixColumns (R110): each column on its own. -/
def mixColumns (s : Block) : Block :=
  Vector.ofFn fun i =>
    let c := i.val / 4
    (mixColumn s[4 * c] s[1 + 4 * c] s[2 + 4 * c] s[3 + 4 * c])[i.val % 4]

/-- `a XOR b` on words of the key schedule. -/
def xorKeyWord (a b : KeyWord) : KeyWord := Vector.ofFn fun i => a[i] ^^^ b[i]

/-- `RotWord(b0, b1, b2, b3) = (b1, b2, b3, b0)` (R112). -/
def rotWord (w : KeyWord) : KeyWord := #v[w[1], w[2], w[3], w[0]]

/-- SubWord applies SBOX to each byte of a word (R108). -/
def subWord (w : KeyWord) : KeyWord := Vector.ofFn fun i => sbox w[i]

/-- `Rcon[1..10]` (R112). -/
def rconTable : List Byte := [0x01, 0x02, 0x04, 0x08, 0x10, 0x20, 0x40, 0x80, 0x1b, 0x36]

/-- `(Rcon[n], 0x00, 0x00, 0x00)` (R112). -/
def rconWord (n : Nat) : KeyWord := #v[rconTable.getD (n - 1) 0, 0x00, 0x00, 0x00]

/-- Word `n` of the key itself: `(K[4n], K[4n+1], K[4n+2], K[4n+3])` (R112). -/
def keyWord (K : Block) (n : Fin 4) : KeyWord :=
  #v[K[4 * n.val], K[4 * n.val + 1], K[4 * n.val + 2], K[4 * n.val + 3]]

/-- One turn of R112's loop: from `w[j-1] .. w[0]`, newest first, to `w[j] .. w[0]`. -/
def expandStep (ws : List KeyWord) : List KeyWord :=
  let j := ws.length
  let t := ws.getD 0 (Vector.replicate 4 0)
  let t' := if j % 4 = 0 then xorKeyWord (subWord (rotWord t)) (rconWord (j / 4)) else t
  xorKeyWord (ws.getD 3 (Vector.replicate 4 0)) t' :: ws

/-- `n` turns of R112's loop, newest word first. -/
def expandWords (K : Block) : Nat → List KeyWord
  | 0 => [keyWord K 3, keyWord K 2, keyWord K 1, keyWord K 0]
  | n + 1 => expandStep (expandWords K n)

/-- The key schedule `w[0..43]` (R112). -/
def keyExpansion (K : Block) : List KeyWord := (expandWords K 40).reverse

/-- Round key `r`: `w[4r] || w[4r+1] || w[4r+2] || w[4r+3]` (R111, R112). -/
def roundKey (w : List KeyWord) (r : Nat) : Block :=
  Vector.ofFn fun i => (w.getD (4 * r + i.val / 4) (Vector.replicate 4 0))[i.val % 4]

/-- AddRoundKey(r) (R111). -/
def addRoundKey (w : List KeyWord) (r : Nat) (s : Block) : Block := xorBlock s (roundKey w r)

/-- The state after AddRoundKey(0) and the first `n` full rounds (R113). -/
def aesRounds (w : List KeyWord) (P : Block) : Nat → Block
  | 0 => addRoundKey w 0 P
  | n + 1 => addRoundKey w (n + 1) (mixColumns (shiftRows (subBytes (aesRounds w P n))))

/-- `AES128(K, P)` (R113): nine full rounds and a final round without MixColumns. -/
@[irreducible] def aes128 (K P : Block) : Block :=
  addRoundKey (keyExpansion K) 10 (shiftRows (subBytes (aesRounds (keyExpansion K) P 9)))

end Sys2Proof.Machine
end

