-- ==== Sys2Proof/Machine/Operands.lean ====
section
/-! DEFINITION. The operands of the commands: the keystream block of the current counter and the LEN-byte prefix of a
block. -/

namespace Sys2Proof.Machine

/-- `KS(c) = AES128(KEY, be128(c))` (43_aes_ctr.md R119). -/
def keystream (key : Block) (c : Counter) : Block := aes128 key (be128 c)

/-- The keystream block of the current counter, `KS(CTR)`. -/
def State.keystream (s : State) : Block := Machine.keystream s.key s.ctr

/-- Bytes `0 .. LEN-1` of a block, `0x00` in the others: the shape every length-using command gives DOUT
(42_whitener.md R101, R103). -/
def firstBytes (len : BitVec 5) (X : Block) : Block :=
  Vector.ofFn fun i => if i.val < len.toNat then X[i] else 0x00

end Sys2Proof.Machine
end

