-- ==== Sys2Proof/Machine/Crypt.lean ====
section
/-! DEFINITION. The combined command CRYPT at completion (44_control.md R134). -/

namespace Sys2Proof.Machine

/-- CRYPT n: DOUT is the first n bytes of DIN XOR KS(CTR) XOR PAD, zeros after them; one counter step (R134). -/
def execCrypt (len : BitVec 5) (s : State) : Host.Outcome State Fault Refusal :=
  .next (s.setDout (firstBytes len (xorBlock (xorBlock s.din s.keystream) s.pad))).advance.finish

end Sys2Proof.Machine
end

