-- ==== Sys2Proof/Machine/Md5.lean ====
section
/-! DEFINITION. MD5 of a 16-byte message as 41_md5_pad.md R84 to R92 define it. -/

namespace Sys2Proof.Machine

/-- The padded 64-byte block B (R84): the message, 0x80, zeros, and the bit length 128 as a 64-bit little-endian
number. -/
def md5Block (m : Block) : Vector Byte 64 :=
  Vector.ofFn fun i =>
    if h : i.val < 16 then m[i.val]
    else if i.val = 16 then 0x80
    else if i.val = 56 then 0x80
    else 0x00

/-- `X[j] = le32(B[4j .. 4j+3])` (R85). -/
def md5Word (m : Block) (j : Fin 16) : Word :=
  le32 (md5Block m)[4 * j.val] (md5Block m)[4 * j.val + 1] (md5Block m)[4 * j.val + 2] (md5Block m)[4 * j.val + 3]

/-- The working variables `(a, b, c, d)` (R91). -/
structure Md5Chain where
  a : Word
  b : Word
  c : Word
  d : Word
  deriving DecidableEq, Repr

/-- `(A0, B0, C0, D0)` (R86). -/
def md5Init : Md5Chain := ⟨0x67452301, 0xEFCDAB89, 0x98BADCFE, 0x10325476⟩

/-- The round function of step `i` on `(b, c, d)`: F, G, H, I (R87). -/
def md5Round (i : Nat) (x y z : Word) : Word :=
  if i ≤ 15 then (x &&& y) ||| (~~~x &&& z)
  else if i ≤ 31 then (x &&& z) ||| (y &&& ~~~z)
  else if i ≤ 47 then x ^^^ y ^^^ z
  else y ^^^ (x ||| ~~~z)

/-- The additive constants (R88), four to a row as the rule lists them. -/
def md5Table : List (List Word) :=
  [[0xd76aa478, 0xe8c7b756, 0x242070db, 0xc1bdceee],
   [0xf57c0faf, 0x4787c62a, 0xa8304613, 0xfd469501],
   [0x698098d8, 0x8b44f7af, 0xffff5bb1, 0x895cd7be],
   [0x6b901122, 0xfd987193, 0xa679438e, 0x49b40821],
   [0xf61e2562, 0xc040b340, 0x265e5a51, 0xe9b6c7aa],
   [0xd62f105d, 0x02441453, 0xd8a1e681, 0xe7d3fbc8],
   [0x21e1cde6, 0xc33707d6, 0xf4d50d87, 0x455a14ed],
   [0xa9e3e905, 0xfcefa3f8, 0x676f02d9, 0x8d2a4c8a],
   [0xfffa3942, 0x8771f681, 0x6d9d6122, 0xfde5380c],
   [0xa4beea44, 0x4bdecfa9, 0xf6bb4b60, 0xbebfbc70],
   [0x289b7ec6, 0xeaa127fa, 0xd4ef3085, 0x04881d05],
   [0xd9d4d039, 0xe6db99e5, 0x1fa27cf8, 0xc4ac5665],
   [0xf4292244, 0x432aff97, 0xab9423a7, 0xfc93a039],
   [0x655b59c3, 0x8f0ccc92, 0xffeff47d, 0x85845dd1],
   [0x6fa87e4f, 0xfe2ce6e0, 0xa3014314, 0x4e0811a1],
   [0xf7537e82, 0xbd3af235, 0x2ad7d2bb, 0xeb86d391]]

/-- `T[i]` (R88). -/
def md5T (i : Nat) : Word := (md5Table.getD (i / 4) []).getD (i % 4) 0

/-- The rotation amount `s[i]` (R89). -/
def md5Shift (i : Nat) : Nat :=
  if i ≤ 15 then [7, 12, 17, 22].getD (i % 4) 0
  else if i ≤ 31 then [5, 9, 14, 20].getD (i % 4) 0
  else if i ≤ 47 then [4, 11, 16, 23].getD (i % 4) 0
  else [6, 10, 15, 21].getD (i % 4) 0

/-- The message word index `g(i)` (R90). -/
def md5Index (i : Nat) : Fin 16 :=
  if i ≤ 15 then Fin.ofNat 16 i
  else if i ≤ 31 then Fin.ofNat 16 (5 * i + 1)
  else if i ≤ 47 then Fin.ofNat 16 (3 * i + 5)
  else Fin.ofNat 16 (7 * i)

/-- Step `i` of R91. -/
def md5Step (m : Block) (i : Nat) (s : Md5Chain) : Md5Chain where
  a := s.d
  b := s.b + rotl32 (s.a + md5Round i s.b s.c s.d + md5T i + md5Word m (md5Index i)) (md5Shift i)
  c := s.b
  d := s.c

/-- The working variables after the first `n` steps of R91. -/
def md5Steps (m : Block) : Nat → Md5Chain
  | 0 => md5Init
  | n + 1 => md5Step m n (md5Steps m n)

/-- The digest (R92): PAD word 0 is `a + A0`, and so on, each word's bytes little-endian. -/
def md5Digest (s : Md5Chain) : Block :=
  blockOfWords fun k => #v[s.a + md5Init.a, s.b + md5Init.b, s.c + md5Init.c, s.d + md5Init.d][k]

/-- `MD5_16(m)` (R91): 64 steps. -/
@[irreducible] def md5_16 (m : Block) : Block := md5Digest (md5Steps m 64)

end Sys2Proof.Machine
end

