-- ==== Sys2Proof/Machine/Pad.lean ====
section
/-! DEFINITION. The MD5 pad core's command MD5 at completion (41_md5_pad.md R83). -/

namespace Sys2Proof.Machine

/-- MD5: `PAD <- MD5_16(DIN); PAD_VALID <- 1; BUSY <- 0; DONE <- 1` (R83). -/
def execMd5 (s : State) : Host.Outcome State Fault Refusal := .next (s.setPad (md5_16 s.din)).finish

end Sys2Proof.Machine
end

