-- ==== Sys2Proof/Machine/Stream.lean ====
section
/-! DEFINITION. The AES-CTR engine's commands KSGEN and CTRXOR at completion (43_aes_ctr.md R120, R121). -/

namespace Sys2Proof.Machine

/-- KSGEN: `DOUT <- AES128(KEY, be128(CTR)); Advance()` (R120). -/
def execKsgen (s : State) : Host.Outcome State Fault Refusal := .next (s.setDout s.keystream).advance.finish

/-- CTRXOR n: DOUT is the first n bytes of DIN XOR KS(CTR), zeros after them; one counter step whatever n is (R121,
R122). -/
def execCtrxor (len : BitVec 5) (s : State) : Host.Outcome State Fault Refusal :=
  .next (s.setDout (firstBytes len (xorBlock s.din s.keystream))).advance.finish

end Sys2Proof.Machine
end

