-- ==== Sys2Proof/Machine/Whitener.lean ====
section
/-! DEFINITION. The block whitener's command WHITEN at completion (42_whitener.md R101). -/

namespace Sys2Proof.Machine

/-- WHITEN n: DOUT is the first n bytes of DIN XOR PAD, zeros after them (R101, R103). -/
def execWhiten (len : BitVec 5) (s : State) : Host.Outcome State Fault Refusal :=
  .next (s.setDout (firstBytes len (xorBlock s.din s.pad))).finish

end Sys2Proof.Machine
end

