-- ==== Sys2Proof/Machine/Dispatch.lean ====
section
/-! DEFINITION. The completion of a command (70_reset_and_hazards.md R175 item 1): one arm per command. -/

namespace Sys2Proof.Machine

def exec (i : Instr) (s : State) : Host.Outcome State Fault Refusal :=
  match i with
  | .nop => Sys2Proof.Machine.execNop s
  | .ctrClr => Sys2Proof.Machine.execCtrClr s
  | .keyClr => Sys2Proof.Machine.execKeyClr s
  | .md5 => Sys2Proof.Machine.execMd5 s
  | .whiten len => Sys2Proof.Machine.execWhiten len s
  | .ksgen => Sys2Proof.Machine.execKsgen s
  | .ctrxor len => Sys2Proof.Machine.execCtrxor len s
  | .crypt len => Sys2Proof.Machine.execCrypt len s

end Sys2Proof.Machine
end

