-- ==== Sys2Proof/Machine/Engine.lean ====
section
/-! DEFINITION. What the agents do in a step (00_scope.md R9, 70_reset_and_hazards.md R174, R175), and how a command
word is put in front of the engine. -/

namespace Sys2Proof.Machine

/-- The completion step, enabled exactly when a command is pending (R175); otherwise the engine waits, idle (R166). -/
def engineStep (s : State) : Host.Outcome State Fault Refusal :=
  match s.pending with
  | some i => exec i s
  | none => .next s

/-- What one input does, once it is taken off the list. -/
def takeInput (x : Input) (s : State) : Host.Outcome State Fault Refusal :=
  match x with
  | .access a => .next (busAccess a s)
  | .engine => engineStep s
  | .rst => .next s.takeReset

/-- One step: the next input, and the engine's turn when there is none, so that a pending command is eventually
completed (R180). -/
def machineStep (s : State) : Host.Outcome State Fault Refusal :=
  match s.inputs with
  | [] => engineStep s
  | x :: rest => takeInput x { s with inputs := rest }

/-- Puts the command of a word in front of the engine: a legal word's command is pending and the engine's turn is
next. A word the decoder refuses never becomes pending (60_exceptions.md R148): there the next step is the CMD write
itself, which rejects the word. -/
def placeWord (v : Word) (s : State) : State :=
  match decode v with
  | .cmd i => { s.accept i with inputs := .engine :: s.inputs }
  | .illegal => { s with inputs := .access (Access.wr .cmd v) :: s.inputs }
  | .badLen => { s with inputs := .access (Access.wr .cmd v) :: s.inputs }

end Sys2Proof.Machine
end

