-- ==== Sys2Proof/Machine/Step.lean ====
section
/-! DEFINITION. The step of the machine. -/

namespace Sys2Proof.Machine

/-- One step of HTC-CORE and the outside world (00_scope.md R9). -/
def step (s : State) : Host.Outcome State Fault Refusal := machineStep s

/-- The command word of an opcode table row's bits, placed where the engine finds its next command. -/
def State.withFetchWord (s : State) (nbits w : Nat) : State := placeWord (tableWord nbits w) s

end Sys2Proof.Machine
end

