-- ==== Sys2Proof/Laws/State.lean ====
section
/-! SUPPORT. One lemma per field and named update of State, so that no proof unfolds a record update. -/

namespace Sys2Proof.Machine

variable (s : State)

/-! ### `State.raiseError` -/

@[simp] theorem State.raiseError_key (c : CmdError) : (s.raiseError c).key = s.key := rfl
@[simp] theorem State.raiseError_keyWmask (c : CmdError) : (s.raiseError c).keyWmask = s.keyWmask := rfl
@[simp] theorem State.raiseError_ctr (c : CmdError) : (s.raiseError c).ctr = s.ctr := rfl
@[simp] theorem State.raiseError_ctrWrap (c : CmdError) : (s.raiseError c).ctrWrap = s.ctrWrap := rfl
@[simp] theorem State.raiseError_din (c : CmdError) : (s.raiseError c).din = s.din := rfl
@[simp] theorem State.raiseError_dout (c : CmdError) : (s.raiseError c).dout = s.dout := rfl
@[simp] theorem State.raiseError_pad (c : CmdError) : (s.raiseError c).pad = s.pad := rfl
@[simp] theorem State.raiseError_padValid (c : CmdError) : (s.raiseError c).padValid = s.padValid := rfl
@[simp] theorem State.raiseError_busy (c : CmdError) : (s.raiseError c).busy = s.busy := rfl
@[simp] theorem State.raiseError_done (c : CmdError) : (s.raiseError c).done = s.done := rfl
@[simp] theorem State.raiseError_err (c : CmdError) : (s.raiseError c).err = if s.err = 0#4 then c.code else s.err := rfl
@[simp] theorem State.raiseError_pending (c : CmdError) : (s.raiseError c).pending = s.pending := rfl
@[simp] theorem State.raiseError_inputs (c : CmdError) : (s.raiseError c).inputs = s.inputs := rfl
@[simp] theorem State.raiseError_responses (c : CmdError) : (s.raiseError c).responses = s.responses := rfl

/-! ### `State.clearErr` -/

@[simp] theorem State.clearErr_key : (s.clearErr).key = s.key := rfl
@[simp] theorem State.clearErr_keyWmask : (s.clearErr).keyWmask = s.keyWmask := rfl
@[simp] theorem State.clearErr_ctr : (s.clearErr).ctr = s.ctr := rfl
@[simp] theorem State.clearErr_ctrWrap : (s.clearErr).ctrWrap = s.ctrWrap := rfl
@[simp] theorem State.clearErr_din : (s.clearErr).din = s.din := rfl
@[simp] theorem State.clearErr_dout : (s.clearErr).dout = s.dout := rfl
@[simp] theorem State.clearErr_pad : (s.clearErr).pad = s.pad := rfl
@[simp] theorem State.clearErr_padValid : (s.clearErr).padValid = s.padValid := rfl
@[simp] theorem State.clearErr_busy : (s.clearErr).busy = s.busy := rfl
@[simp] theorem State.clearErr_done : (s.clearErr).done = s.done := rfl
@[simp] theorem State.clearErr_err : (s.clearErr).err = 0#4 := rfl
@[simp] theorem State.clearErr_pending : (s.clearErr).pending = s.pending := rfl
@[simp] theorem State.clearErr_inputs : (s.clearErr).inputs = s.inputs := rfl
@[simp] theorem State.clearErr_responses : (s.clearErr).responses = s.responses := rfl

/-! ### `State.loadKey` -/

@[simp] theorem State.loadKey_key (k : Fin 4) (v : Word) : (s.loadKey k v).key = setWord s.key k v := rfl
@[simp] theorem State.loadKey_keyWmask (k : Fin 4) (v : Word) : (s.loadKey k v).keyWmask = s.keyWmask ||| 1#4 <<< k.val := rfl
@[simp] theorem State.loadKey_ctr (k : Fin 4) (v : Word) : (s.loadKey k v).ctr = s.ctr := rfl
@[simp] theorem State.loadKey_ctrWrap (k : Fin 4) (v : Word) : (s.loadKey k v).ctrWrap = s.ctrWrap := rfl
@[simp] theorem State.loadKey_din (k : Fin 4) (v : Word) : (s.loadKey k v).din = s.din := rfl
@[simp] theorem State.loadKey_dout (k : Fin 4) (v : Word) : (s.loadKey k v).dout = s.dout := rfl
@[simp] theorem State.loadKey_pad (k : Fin 4) (v : Word) : (s.loadKey k v).pad = s.pad := rfl
@[simp] theorem State.loadKey_padValid (k : Fin 4) (v : Word) : (s.loadKey k v).padValid = s.padValid := rfl
@[simp] theorem State.loadKey_busy (k : Fin 4) (v : Word) : (s.loadKey k v).busy = s.busy := rfl
@[simp] theorem State.loadKey_done (k : Fin 4) (v : Word) : (s.loadKey k v).done = s.done := rfl
@[simp] theorem State.loadKey_err (k : Fin 4) (v : Word) : (s.loadKey k v).err = s.err := rfl
@[simp] theorem State.loadKey_pending (k : Fin 4) (v : Word) : (s.loadKey k v).pending = s.pending := rfl
@[simp] theorem State.loadKey_inputs (k : Fin 4) (v : Word) : (s.loadKey k v).inputs = s.inputs := rfl
@[simp] theorem State.loadKey_responses (k : Fin 4) (v : Word) : (s.loadKey k v).responses = s.responses := rfl

/-! ### `State.loadDin` -/

@[simp] theorem State.loadDin_key (k : Fin 4) (v : Word) : (s.loadDin k v).key = s.key := rfl
@[simp] theorem State.loadDin_keyWmask (k : Fin 4) (v : Word) : (s.loadDin k v).keyWmask = s.keyWmask := rfl
@[simp] theorem State.loadDin_ctr (k : Fin 4) (v : Word) : (s.loadDin k v).ctr = s.ctr := rfl
@[simp] theorem State.loadDin_ctrWrap (k : Fin 4) (v : Word) : (s.loadDin k v).ctrWrap = s.ctrWrap := rfl
@[simp] theorem State.loadDin_din (k : Fin 4) (v : Word) : (s.loadDin k v).din = setWord s.din k v := rfl
@[simp] theorem State.loadDin_dout (k : Fin 4) (v : Word) : (s.loadDin k v).dout = s.dout := rfl
@[simp] theorem State.loadDin_pad (k : Fin 4) (v : Word) : (s.loadDin k v).pad = s.pad := rfl
@[simp] theorem State.loadDin_padValid (k : Fin 4) (v : Word) : (s.loadDin k v).padValid = s.padValid := rfl
@[simp] theorem State.loadDin_busy (k : Fin 4) (v : Word) : (s.loadDin k v).busy = s.busy := rfl
@[simp] theorem State.loadDin_done (k : Fin 4) (v : Word) : (s.loadDin k v).done = s.done := rfl
@[simp] theorem State.loadDin_err (k : Fin 4) (v : Word) : (s.loadDin k v).err = s.err := rfl
@[simp] theorem State.loadDin_pending (k : Fin 4) (v : Word) : (s.loadDin k v).pending = s.pending := rfl
@[simp] theorem State.loadDin_inputs (k : Fin 4) (v : Word) : (s.loadDin k v).inputs = s.inputs := rfl
@[simp] theorem State.loadDin_responses (k : Fin 4) (v : Word) : (s.loadDin k v).responses = s.responses := rfl

/-! ### `State.clearKey` -/

@[simp] theorem State.clearKey_key : (s.clearKey).key = zeroBlock := rfl
@[simp] theorem State.clearKey_keyWmask : (s.clearKey).keyWmask = 0#4 := rfl
@[simp] theorem State.clearKey_ctr : (s.clearKey).ctr = s.ctr := rfl
@[simp] theorem State.clearKey_ctrWrap : (s.clearKey).ctrWrap = s.ctrWrap := rfl
@[simp] theorem State.clearKey_din : (s.clearKey).din = s.din := rfl
@[simp] theorem State.clearKey_dout : (s.clearKey).dout = s.dout := rfl
@[simp] theorem State.clearKey_pad : (s.clearKey).pad = s.pad := rfl
@[simp] theorem State.clearKey_padValid : (s.clearKey).padValid = s.padValid := rfl
@[simp] theorem State.clearKey_busy : (s.clearKey).busy = s.busy := rfl
@[simp] theorem State.clearKey_done : (s.clearKey).done = s.done := rfl
@[simp] theorem State.clearKey_err : (s.clearKey).err = s.err := rfl
@[simp] theorem State.clearKey_pending : (s.clearKey).pending = s.pending := rfl
@[simp] theorem State.clearKey_inputs : (s.clearKey).inputs = s.inputs := rfl
@[simp] theorem State.clearKey_responses : (s.clearKey).responses = s.responses := rfl

/-! ### `State.clearCtr` -/

@[simp] theorem State.clearCtr_key : (s.clearCtr).key = s.key := rfl
@[simp] theorem State.clearCtr_keyWmask : (s.clearCtr).keyWmask = s.keyWmask := rfl
@[simp] theorem State.clearCtr_ctr : (s.clearCtr).ctr = 0#128 := rfl
@[simp] theorem State.clearCtr_ctrWrap : (s.clearCtr).ctrWrap = false := rfl
@[simp] theorem State.clearCtr_din : (s.clearCtr).din = s.din := rfl
@[simp] theorem State.clearCtr_dout : (s.clearCtr).dout = s.dout := rfl
@[simp] theorem State.clearCtr_pad : (s.clearCtr).pad = s.pad := rfl
@[simp] theorem State.clearCtr_padValid : (s.clearCtr).padValid = s.padValid := rfl
@[simp] theorem State.clearCtr_busy : (s.clearCtr).busy = s.busy := rfl
@[simp] theorem State.clearCtr_done : (s.clearCtr).done = s.done := rfl
@[simp] theorem State.clearCtr_err : (s.clearCtr).err = s.err := rfl
@[simp] theorem State.clearCtr_pending : (s.clearCtr).pending = s.pending := rfl
@[simp] theorem State.clearCtr_inputs : (s.clearCtr).inputs = s.inputs := rfl
@[simp] theorem State.clearCtr_responses : (s.clearCtr).responses = s.responses := rfl

/-! ### `State.advance` -/

@[simp] theorem State.advance_key : (s.advance).key = s.key := rfl
@[simp] theorem State.advance_keyWmask : (s.advance).keyWmask = s.keyWmask := rfl
@[simp] theorem State.advance_ctr : (s.advance).ctr = if s.ctr = BitVec.allOnes 128 then 0#128 else s.ctr + 1#128 := rfl
@[simp] theorem State.advance_ctrWrap : (s.advance).ctrWrap = if s.ctr = BitVec.allOnes 128 then true else s.ctrWrap := rfl
@[simp] theorem State.advance_din : (s.advance).din = s.din := rfl
@[simp] theorem State.advance_dout : (s.advance).dout = s.dout := rfl
@[simp] theorem State.advance_pad : (s.advance).pad = s.pad := rfl
@[simp] theorem State.advance_padValid : (s.advance).padValid = s.padValid := rfl
@[simp] theorem State.advance_busy : (s.advance).busy = s.busy := rfl
@[simp] theorem State.advance_done : (s.advance).done = s.done := rfl
@[simp] theorem State.advance_err : (s.advance).err = s.err := rfl
@[simp] theorem State.advance_pending : (s.advance).pending = s.pending := rfl
@[simp] theorem State.advance_inputs : (s.advance).inputs = s.inputs := rfl
@[simp] theorem State.advance_responses : (s.advance).responses = s.responses := rfl

/-! ### `State.setDout` -/

@[simp] theorem State.setDout_key (X : Block) : (s.setDout X).key = s.key := rfl
@[simp] theorem State.setDout_keyWmask (X : Block) : (s.setDout X).keyWmask = s.keyWmask := rfl
@[simp] theorem State.setDout_ctr (X : Block) : (s.setDout X).ctr = s.ctr := rfl
@[simp] theorem State.setDout_ctrWrap (X : Block) : (s.setDout X).ctrWrap = s.ctrWrap := rfl
@[simp] theorem State.setDout_din (X : Block) : (s.setDout X).din = s.din := rfl
@[simp] theorem State.setDout_dout (X : Block) : (s.setDout X).dout = X := rfl
@[simp] theorem State.setDout_pad (X : Block) : (s.setDout X).pad = s.pad := rfl
@[simp] theorem State.setDout_padValid (X : Block) : (s.setDout X).padValid = s.padValid := rfl
@[simp] theorem State.setDout_busy (X : Block) : (s.setDout X).busy = s.busy := rfl
@[simp] theorem State.setDout_done (X : Block) : (s.setDout X).done = s.done := rfl
@[simp] theorem State.setDout_err (X : Block) : (s.setDout X).err = s.err := rfl
@[simp] theorem State.setDout_pending (X : Block) : (s.setDout X).pending = s.pending := rfl
@[simp] theorem State.setDout_inputs (X : Block) : (s.setDout X).inputs = s.inputs := rfl
@[simp] theorem State.setDout_responses (X : Block) : (s.setDout X).responses = s.responses := rfl

/-! ### `State.setPad` -/

@[simp] theorem State.setPad_key (X : Block) : (s.setPad X).key = s.key := rfl
@[simp] theorem State.setPad_keyWmask (X : Block) : (s.setPad X).keyWmask = s.keyWmask := rfl
@[simp] theorem State.setPad_ctr (X : Block) : (s.setPad X).ctr = s.ctr := rfl
@[simp] theorem State.setPad_ctrWrap (X : Block) : (s.setPad X).ctrWrap = s.ctrWrap := rfl
@[simp] theorem State.setPad_din (X : Block) : (s.setPad X).din = s.din := rfl
@[simp] theorem State.setPad_dout (X : Block) : (s.setPad X).dout = s.dout := rfl
@[simp] theorem State.setPad_pad (X : Block) : (s.setPad X).pad = X := rfl
@[simp] theorem State.setPad_padValid (X : Block) : (s.setPad X).padValid = true := rfl
@[simp] theorem State.setPad_busy (X : Block) : (s.setPad X).busy = s.busy := rfl
@[simp] theorem State.setPad_done (X : Block) : (s.setPad X).done = s.done := rfl
@[simp] theorem State.setPad_err (X : Block) : (s.setPad X).err = s.err := rfl
@[simp] theorem State.setPad_pending (X : Block) : (s.setPad X).pending = s.pending := rfl
@[simp] theorem State.setPad_inputs (X : Block) : (s.setPad X).inputs = s.inputs := rfl
@[simp] theorem State.setPad_responses (X : Block) : (s.setPad X).responses = s.responses := rfl

/-! ### `State.finish` -/

@[simp] theorem State.finish_key : (s.finish).key = s.key := rfl
@[simp] theorem State.finish_keyWmask : (s.finish).keyWmask = s.keyWmask := rfl
@[simp] theorem State.finish_ctr : (s.finish).ctr = s.ctr := rfl
@[simp] theorem State.finish_ctrWrap : (s.finish).ctrWrap = s.ctrWrap := rfl
@[simp] theorem State.finish_din : (s.finish).din = s.din := rfl
@[simp] theorem State.finish_dout : (s.finish).dout = s.dout := rfl
@[simp] theorem State.finish_pad : (s.finish).pad = s.pad := rfl
@[simp] theorem State.finish_padValid : (s.finish).padValid = s.padValid := rfl
@[simp] theorem State.finish_busy : (s.finish).busy = false := rfl
@[simp] theorem State.finish_done : (s.finish).done = true := rfl
@[simp] theorem State.finish_err : (s.finish).err = s.err := rfl
@[simp] theorem State.finish_pending : (s.finish).pending = none := rfl
@[simp] theorem State.finish_inputs : (s.finish).inputs = s.inputs := rfl
@[simp] theorem State.finish_responses : (s.finish).responses = s.responses := rfl

/-! ### `State.accept` -/

@[simp] theorem State.accept_key (i : Instr) : (s.accept i).key = s.key := rfl
@[simp] theorem State.accept_keyWmask (i : Instr) : (s.accept i).keyWmask = s.keyWmask := rfl
@[simp] theorem State.accept_ctr (i : Instr) : (s.accept i).ctr = s.ctr := rfl
@[simp] theorem State.accept_ctrWrap (i : Instr) : (s.accept i).ctrWrap = s.ctrWrap := rfl
@[simp] theorem State.accept_din (i : Instr) : (s.accept i).din = s.din := rfl
@[simp] theorem State.accept_dout (i : Instr) : (s.accept i).dout = s.dout := rfl
@[simp] theorem State.accept_pad (i : Instr) : (s.accept i).pad = s.pad := rfl
@[simp] theorem State.accept_padValid (i : Instr) : (s.accept i).padValid = s.padValid := rfl
@[simp] theorem State.accept_busy (i : Instr) : (s.accept i).busy = true := rfl
@[simp] theorem State.accept_done (i : Instr) : (s.accept i).done = false := rfl
@[simp] theorem State.accept_err (i : Instr) : (s.accept i).err = s.err := rfl
@[simp] theorem State.accept_pending (i : Instr) : (s.accept i).pending = some i := rfl
@[simp] theorem State.accept_inputs (i : Instr) : (s.accept i).inputs = s.inputs := rfl
@[simp] theorem State.accept_responses (i : Instr) : (s.accept i).responses = s.responses := rfl

/-! ### `State.clearDone` -/

@[simp] theorem State.clearDone_key : (s.clearDone).key = s.key := rfl
@[simp] theorem State.clearDone_keyWmask : (s.clearDone).keyWmask = s.keyWmask := rfl
@[simp] theorem State.clearDone_ctr : (s.clearDone).ctr = s.ctr := rfl
@[simp] theorem State.clearDone_ctrWrap : (s.clearDone).ctrWrap = s.ctrWrap := rfl
@[simp] theorem State.clearDone_din : (s.clearDone).din = s.din := rfl
@[simp] theorem State.clearDone_dout : (s.clearDone).dout = s.dout := rfl
@[simp] theorem State.clearDone_pad : (s.clearDone).pad = s.pad := rfl
@[simp] theorem State.clearDone_padValid : (s.clearDone).padValid = s.padValid := rfl
@[simp] theorem State.clearDone_busy : (s.clearDone).busy = s.busy := rfl
@[simp] theorem State.clearDone_done : (s.clearDone).done = false := rfl
@[simp] theorem State.clearDone_err : (s.clearDone).err = s.err := rfl
@[simp] theorem State.clearDone_pending : (s.clearDone).pending = s.pending := rfl
@[simp] theorem State.clearDone_inputs : (s.clearDone).inputs = s.inputs := rfl
@[simp] theorem State.clearDone_responses : (s.clearDone).responses = s.responses := rfl

/-! ### `State.respond` -/

@[simp] theorem State.respond_key (r : Response) : (s.respond r).key = s.key := rfl
@[simp] theorem State.respond_keyWmask (r : Response) : (s.respond r).keyWmask = s.keyWmask := rfl
@[simp] theorem State.respond_ctr (r : Response) : (s.respond r).ctr = s.ctr := rfl
@[simp] theorem State.respond_ctrWrap (r : Response) : (s.respond r).ctrWrap = s.ctrWrap := rfl
@[simp] theorem State.respond_din (r : Response) : (s.respond r).din = s.din := rfl
@[simp] theorem State.respond_dout (r : Response) : (s.respond r).dout = s.dout := rfl
@[simp] theorem State.respond_pad (r : Response) : (s.respond r).pad = s.pad := rfl
@[simp] theorem State.respond_padValid (r : Response) : (s.respond r).padValid = s.padValid := rfl
@[simp] theorem State.respond_busy (r : Response) : (s.respond r).busy = s.busy := rfl
@[simp] theorem State.respond_done (r : Response) : (s.respond r).done = s.done := rfl
@[simp] theorem State.respond_err (r : Response) : (s.respond r).err = s.err := rfl
@[simp] theorem State.respond_pending (r : Response) : (s.respond r).pending = s.pending := rfl
@[simp] theorem State.respond_inputs (r : Response) : (s.respond r).inputs = s.inputs := rfl
@[simp] theorem State.respond_responses (r : Response) : (s.respond r).responses = r :: s.responses := rfl

/-! ### `State.takeReset` -/

@[simp] theorem State.takeReset_key : (s.takeReset).key = zeroBlock := rfl
@[simp] theorem State.takeReset_keyWmask : (s.takeReset).keyWmask = 0#4 := rfl
@[simp] theorem State.takeReset_ctr : (s.takeReset).ctr = 0#128 := rfl
@[simp] theorem State.takeReset_ctrWrap : (s.takeReset).ctrWrap = false := rfl
@[simp] theorem State.takeReset_din : (s.takeReset).din = zeroBlock := rfl
@[simp] theorem State.takeReset_dout : (s.takeReset).dout = zeroBlock := rfl
@[simp] theorem State.takeReset_pad : (s.takeReset).pad = zeroBlock := rfl
@[simp] theorem State.takeReset_padValid : (s.takeReset).padValid = false := rfl
@[simp] theorem State.takeReset_busy : (s.takeReset).busy = false := rfl
@[simp] theorem State.takeReset_done : (s.takeReset).done = false := rfl
@[simp] theorem State.takeReset_err : (s.takeReset).err = 0#4 := rfl
@[simp] theorem State.takeReset_pending : (s.takeReset).pending = none := rfl
@[simp] theorem State.takeReset_inputs : (s.takeReset).inputs = s.inputs := rfl
@[simp] theorem State.takeReset_responses : (s.takeReset).responses = s.responses := rfl

/-! ### `State.reset` -/

@[simp] theorem State.reset_key : State.reset.key = zeroBlock := rfl
@[simp] theorem State.reset_keyWmask : State.reset.keyWmask = 0#4 := rfl
@[simp] theorem State.reset_ctr : State.reset.ctr = 0#128 := rfl
@[simp] theorem State.reset_ctrWrap : State.reset.ctrWrap = false := rfl
@[simp] theorem State.reset_din : State.reset.din = zeroBlock := rfl
@[simp] theorem State.reset_dout : State.reset.dout = zeroBlock := rfl
@[simp] theorem State.reset_pad : State.reset.pad = zeroBlock := rfl
@[simp] theorem State.reset_padValid : State.reset.padValid = false := rfl
@[simp] theorem State.reset_busy : State.reset.busy = false := rfl
@[simp] theorem State.reset_done : State.reset.done = false := rfl
@[simp] theorem State.reset_err : State.reset.err = 0#4 := rfl
@[simp] theorem State.reset_pending : State.reset.pending = none := rfl
@[simp] theorem State.reset_inputs : State.reset.inputs = [] := rfl
@[simp] theorem State.reset_responses : State.reset.responses = [] := rfl

end Sys2Proof.Machine
end

