-- ==== Sys2Proof/Laws/Ops.lean ====
section
/-! SUPPORT. One lemma per shared operation that says everything it can do: the checks of IssueCommand, the register
writes, the accesses. -/

namespace Sys2Proof.Machine

/-! ### IssueCommand (60_exceptions.md R147) -/

/-- No state check of a command fails (R147). -/
theorem needError_eq_none_iff (i : Instr) (s : State) :
    needError i s = none ↔
      (i.needsKey = true → s.keyValid = true) ∧ (i.needsPad = true → s.padValid = true) ∧
        (i.usesCtr = true → s.ctrWrap = false) := by
  unfold needError
  cases i.needsKey <;> cases s.keyValid <;> cases i.needsPad <;> cases s.padValid <;> cases i.usesCtr <;>
    cases s.ctrWrap <;> simp

/-- The checks read KEY_WMASK, PAD_VALID and CTR_WRAP and nothing else. -/
theorem needError_congr (i : Instr) {s t : State} (hk : t.keyWmask = s.keyWmask) (hp : t.padValid = s.padValid)
    (hc : t.ctrWrap = s.ctrWrap) : needError i t = needError i s := by
  simp [needError, State.keyValid, hk, hp, hc]

/-- IssueCommand rejects with DONE cleared and at most an error code recorded, or accepts a legal command whose state
checks all passed, with ERR = 0. -/
theorem issueCommand_cases (v : Word) (s : State) :
    issueCommand v s = s.clearDone ∨ (∃ c, issueCommand v s = s.clearDone.raiseError c) ∨
      ∃ i, decode v = .cmd i ∧ s.err = 0#4 ∧ needError i s = none ∧ issueCommand v s = s.clearDone.accept i := by
  unfold issueCommand
  by_cases he : s.err = 0#4
  · rw [if_neg (by simp [he])]
    cases hd : decode v with
    | illegal => exact .inr (.inl ⟨_, rfl⟩)
    | badLen => exact .inr (.inl ⟨_, rfl⟩)
    | cmd i =>
      have hn : needError i s.clearDone = needError i s := needError_congr i rfl rfl rfl
      simp only [State.tryAccept, hn]
      cases h : needError i s with
      | some c => exact .inr (.inl ⟨c, rfl⟩)
      | none => exact .inr (.inr ⟨i, rfl, he, h, rfl⟩)
  · exact .inl (if_pos he)

/-! ### Writes (20_memory.md R49) -/

theorem unlessBusy_busy {s t : State} (h : s.busy = true) : s.unlessBusy t = s.raiseError .busy := by
  simp [State.unlessBusy, h]

theorem unlessBusy_idle {s t : State} (h : s.busy = false) : s.unlessBusy t = t := by
  simp [State.unlessBusy, h]

/-- Everything a write can do: nothing, record ERR_BUSY while busy, clear ERR, or, while idle, issue a command or load
a word of KEY or DIN. -/
theorem busWrite_cases (r : Reg) (v : Word) (s : State) :
    busWrite r v s = s ∨ busWrite r v s = s.clearErr ∨ (s.busy = true ∧ busWrite r v s = s.raiseError .busy) ∨
      (s.busy = false ∧ r = .cmd ∧ busWrite r v s = issueCommand v s) ∨
      (s.busy = false ∧ ∃ k, r = .key k ∧ busWrite r v s = s.loadKey k v) ∨
      (s.busy = false ∧ ∃ k, r = .din k ∧ busWrite r v s = s.loadDin k v) := by
  cases r with
  | id => exact .inl rfl
  | ctr _ => exact .inl rfl
  | dout _ => exact .inl rfl
  | pad _ => exact .inl rfl
  | status =>
    simp only [busWrite]
    split
    · exact .inr (.inl rfl)
    · exact .inl rfl
  | cmd =>
    cases h : s.busy with
    | true => exact .inr (.inr (.inl ⟨rfl, unlessBusy_busy h⟩))
    | false => exact .inr (.inr (.inr (.inl ⟨rfl, rfl, unlessBusy_idle h⟩)))
  | key k =>
    cases h : s.busy with
    | true => exact .inr (.inr (.inl ⟨rfl, unlessBusy_busy h⟩))
    | false => exact .inr (.inr (.inr (.inr (.inl ⟨rfl, k, rfl, unlessBusy_idle h⟩))))
  | din k =>
    cases h : s.busy with
    | true => exact .inr (.inr (.inl ⟨rfl, unlessBusy_busy h⟩))
    | false => exact .inr (.inr (.inr (.inr (.inr ⟨rfl, k, rfl, unlessBusy_idle h⟩))))

/-- What a write does while a command is pending: it can touch ERR, nothing else (R56). -/
theorem busWrite_busy {r : Reg} {v : Word} {s : State} (h : s.busy = true) :
    ∃ e, busWrite r v s = { s with err := e } := by
  rcases busWrite_cases r v s with e | e | ⟨-, e⟩ | ⟨hb, -⟩ | ⟨hb, -⟩ | ⟨hb, -⟩
  · exact ⟨s.err, e⟩
  · exact ⟨0#4, e⟩
  · exact ⟨_, e⟩
  · simp [h] at hb
  · simp [h] at hb
  · simp [h] at hb

/-- The data a write can touch: KEY and KEY_WMASK only through KEYk and DIN only through DINk, both while idle; CTR,
CTR_WRAP, DOUT, PAD and PAD_VALID never (R49). -/
theorem busWrite_frame (r : Reg) (v : Word) (s : State) :
    (busWrite r v s).ctr = s.ctr ∧ (busWrite r v s).ctrWrap = s.ctrWrap ∧ (busWrite r v s).dout = s.dout ∧
      (busWrite r v s).pad = s.pad ∧ (busWrite r v s).padValid = s.padValid ∧
      ((busWrite r v s).key = s.key ∧ (busWrite r v s).keyWmask = s.keyWmask ∨ s.busy = false ∧ ∃ k, r = .key k) ∧
      ((busWrite r v s).din = s.din ∨ s.busy = false ∧ ∃ k, r = .din k) := by
  rcases busWrite_cases r v s with e | e | ⟨-, e⟩ | ⟨hb, -, e⟩ | ⟨hb, k, hk, e⟩ | ⟨hb, k, hk, e⟩ <;> rw [e]
  · simp
  · simp
  · simp
  · rcases issueCommand_cases v s with e | ⟨c, e⟩ | ⟨i, -, -, -, e⟩ <;> rw [e] <;> simp
  · simp [hb, hk]
  · simp [hb, hk]

/-! ### Accesses (20_memory.md R48, R53, R54) -/

/-- Every listed register is on the list. -/
theorem Reg.mem_all (r : Reg) : r ∈ Reg.all := by
  cases r <;> first | decide | (rename_i k; revert k; decide)

/-- No two listed registers have the same offset, and an offset names its register (R46). -/
theorem regAt_eq_some_iff (off : Nat) (r : Reg) : regAt off = some r ↔ off = r.offset := by
  have back : ∀ q ∈ Reg.all, regAt q.offset = some q := by decide
  constructor
  · intro h
    have hp : (r.offset == off) = true := List.find?_some (p := fun q : Reg => q.offset == off) h
    exact (beq_iff_eq.1 hp).symm
  · rintro rfl
    exact back r r.mem_all

/-- An access reaches a register exactly when it is 32 bits wide and at the register's offset (R53, R54). -/
theorem target_eq_some_iff (a : Access) (r : Reg) : a.target = some r ↔ a.width = .bits32 ∧ a.off = r.offset := by
  have aligned : ∀ q ∈ Reg.all, q.offset % 4 = 0 := by decide
  unfold Access.target
  split
  · simp_all
  split
  · rename_i h
    simp only [reduceCtorEq, false_iff, not_and]
    rintro - he
    exact h (he ▸ aligned r r.mem_all)
  · simp_all [regAt_eq_some_iff]

/-- A write that reaches a register is that register's write. -/
theorem eq_wr_of_target {a : Access} {r : Reg} {v : Word} (h : a.target = some r) (hk : a.kind = .write v) :
    a = Access.wr r v := by
  obtain ⟨hw, ho⟩ := (target_eq_some_iff a r).1 h
  cases a
  simp_all [Access.wr]

theorem target_rd (r : Reg) : (Access.rd r).target = some r := (target_eq_some_iff _ _).2 ⟨rfl, rfl⟩

theorem target_wr (r : Reg) (v : Word) : (Access.wr r v).target = some r := (target_eq_some_iff _ _).2 ⟨rfl, rfl⟩

/-- An access reaches no register, and is then answered with the error response and nothing else, or it reaches one. -/
theorem busAccess_cases (a : Access) (s : State) :
    (a.target = none ∧ busAccess a s = s.respond .error) ∨
      ∃ r, a.target = some r ∧ busAccess a s = performAccess a.kind r s := by
  unfold busAccess
  cases a.target with
  | none => exact .inl ⟨rfl, rfl⟩
  | some r => exact .inr ⟨r, rfl, rfl⟩

theorem busAccess_rd (r : Reg) (s : State) : busAccess (Access.rd r) s = s.respond (.data (busRead r s)) := by
  simp only [busAccess, target_rd]
  rfl

theorem busAccess_wr (r : Reg) (v : Word) (s : State) :
    busAccess (Access.wr r v) s = (busWrite r v s).respond .okay := by
  simp only [busAccess, target_wr]
  rfl

/-- An access leaves the list of inputs alone. -/
theorem performAccess_inputs (k : AccessKind) (r : Reg) (s : State) : (performAccess k r s).inputs = s.inputs := by
  cases k with
  | read => rfl
  | write v =>
    simp only [performAccess, State.respond_inputs]
    rcases busWrite_cases r v s with e | e | ⟨-, e⟩ | ⟨-, -, e⟩ | ⟨-, k, -, e⟩ | ⟨-, k, -, e⟩ <;> rw [e]
    · rfl
    · rfl
    · rcases issueCommand_cases v s with e | ⟨c, e⟩ | ⟨i, -, -, -, e⟩ <;> rw [e] <;> rfl
    · rfl
    · rfl

theorem busAccess_inputs (a : Access) (s : State) : (busAccess a s).inputs = s.inputs := by
  rcases busAccess_cases a s with ⟨-, e⟩ | ⟨r, -, e⟩ <;> rw [e]
  · rfl
  · exact performAccess_inputs _ _ _

end Sys2Proof.Machine
end

