-- ==== Sys2Proof/Safety.lean ====
section
/-! DEFINITION. The invariant of 10_state.md R41, what counts as a safe run, and the host discipline of
70_reset_and_hazards.md R176. -/

namespace Sys2Proof.Machine

/-- The invariants of R41 that constrain the model's state. R41 (b) and (c) hold by construction: KEY_VALID is
computed from KEY_WMASK, and CTR is 128 bits wide. -/
structure State.Inv (s : State) : Prop where
  /-- R41 (a): BUSY exactly when a command is pending. -/
  busy_iff : s.busy = true ↔ s.pending ≠ none
  /-- R41 (d): ERR holds one of the codes 0 to 6. -/
  err_le : s.err.toNat ≤ 6
  /-- R41 (e): PAD is zero until an MD5 has completed. -/
  pad_zero : s.padValid = false → s.pad = zeroBlock
  /-- R41 (f): DONE only when idle. -/
  done_idle : s.done = true → s.busy = false

/-- The part of a completion that is the same for every command (70_reset_and_hazards.md R175 item 2) with the fields
no command touches: `t` is idle and done, ERR is as in `s` (no check happens at completion, 60_exceptions.md R147), and
the outside world's inputs and the bus's answers are as in `s`. -/
structure State.CompletedFrom (s t : State) : Prop where
  pending : t.pending = none
  busy : t.busy = false
  done : t.done = true
  err : t.err = s.err
  inputs : t.inputs = s.inputs
  responses : t.responses = s.responses

/-- `t` holds the counter of `s` advanced by one block (43_aes_ctr.md R116). -/
def State.AdvancedFrom (s t : State) : Prop :=
  (s.ctr.toNat = 2 ^ 128 - 1 → t.ctr = 0 ∧ t.ctrWrap = true) ∧
    (s.ctr.toNat ≠ 2 ^ 128 - 1 → t.ctr.toNat = s.ctr.toNat + 1 ∧ t.ctrWrap = s.ctrWrap)

/-- The engine has the next turn: no input is left, or the next one gives it the turn. -/
def State.EngineNext (s : State) : Prop := s.inputs.head? = none ∨ s.inputs.head? = some .engine

/-- What acceptance established and 20_memory.md R56 preserves until completion (60_exceptions.md R147, R153): the
pending command is one of the 53 legal ones and every state check it passed still holds. -/
def State.PendingReady (s : State) : Prop :=
  ∀ i, s.pending = some i → i.wellFormed = true ∧ needError i s = none

/-- The access is accepted by the window: aligned, 32 bits wide, at a listed offset (20_memory.md R53, R54). -/
def Access.listed (a : Access) : Bool := a.target.isSome

/-- No step of the next `k` ends in a fault or a refusal. -/
def SafeRun (k : Nat) (s : State) : Prop := ∃ t, Host.Core.run core k s = .next t

/-- The registers whose writes BUSY gates: CMD, KEYk and DINk (20_memory.md R56). -/
def Reg.gated : Reg → Bool
  | .id => false
  | .cmd => true
  | .status => false
  | .key _ => true
  | .ctr _ => false
  | .din _ => true
  | .dout _ => false
  | .pad _ => false

/-- An access that keeps the discipline of 70_reset_and_hazards.md R176 (b) and (c): no write to a gated register
while BUSY. -/
def Access.keepsDiscipline (a : Access) (s : State) : Prop :=
  ∀ v r, a.kind = .write v → a.target = some r → r.gated = true → s.busy = false

/-- Equal in everything but KEY: what a host that does not know the key cannot tell apart without a key-using command
(10_state.md R26, R43). -/
def State.EqualButKey (s t : State) : Prop := s = { t with key := s.key }

/-- Runs the host accesses `as` one after the other, and nothing else. -/
def runAccesses (as : List Access) (s : State) : Host.Outcome State Fault Refusal :=
  Host.Core.run core as.length { s with inputs := as.map .access }

end Sys2Proof.Machine
end

