-- ==== Sys2Proof/Laws/Step.lean ====
section
/-! SUPPORT. The completion of each command as an equation, and the inversion of a step: everything the machine and
the outside world can do. -/

namespace Sys2Proof.Machine

/-! ### The completion of each command -/

theorem exec_nop (s : State) : exec .nop s = .next s.finish := rfl

theorem exec_ctrClr (s : State) : exec .ctrClr s = .next s.clearCtr.finish := rfl

theorem exec_keyClr (s : State) : exec .keyClr s = .next s.clearKey.finish := rfl

theorem exec_md5 (s : State) : exec .md5 s = .next (s.setPad (md5_16 s.din)).finish := rfl

theorem exec_whiten (len : BitVec 5) (s : State) :
    exec (.whiten len) s = .next (s.setDout (firstBytes len (xorBlock s.din s.pad))).finish := rfl

theorem exec_ksgen (s : State) : exec .ksgen s = .next (s.setDout s.keystream).advance.finish := rfl

theorem exec_ctrxor (len : BitVec 5) (s : State) :
    exec (.ctrxor len) s = .next (s.setDout (firstBytes len (xorBlock s.din s.keystream))).advance.finish := rfl

theorem exec_crypt (len : BitVec 5) (s : State) :
    exec (.crypt len) s =
      .next (s.setDout (firstBytes len (xorBlock (xorBlock s.din s.keystream) s.pad))).advance.finish := rfl

/-- A command's completion, taken apart: which of the data updates it is, before `finish`. -/
theorem exec_cases (i : Instr) (s : State) :
    ∃ t, exec i s = .next t.finish ∧
      ((i = .nop ∧ t = s) ∨ (i = .ctrClr ∧ t = s.clearCtr) ∨ (i = .keyClr ∧ t = s.clearKey) ∨
        (i = .md5 ∧ t = s.setPad (md5_16 s.din)) ∨ (i.needsPad = true ∧ i.usesCtr = false ∧ ∃ X, t = s.setDout X) ∨
        (i.usesCtr = true ∧ i.needsKey = true ∧ ∃ X, t = (s.setDout X).advance)) := by
  cases i with
  | nop => exact ⟨_, rfl, .inl ⟨rfl, rfl⟩⟩
  | ctrClr => exact ⟨_, rfl, .inr (.inl ⟨rfl, rfl⟩)⟩
  | keyClr => exact ⟨_, rfl, .inr (.inr (.inl ⟨rfl, rfl⟩))⟩
  | md5 => exact ⟨_, rfl, .inr (.inr (.inr (.inl ⟨rfl, rfl⟩)))⟩
  | whiten len => exact ⟨_, rfl, .inr (.inr (.inr (.inr (.inl ⟨rfl, rfl, _, rfl⟩))))⟩
  | ksgen => exact ⟨_, rfl, .inr (.inr (.inr (.inr (.inr ⟨rfl, rfl, _, rfl⟩))))⟩
  | ctrxor len => exact ⟨_, rfl, .inr (.inr (.inr (.inr (.inr ⟨rfl, rfl, _, rfl⟩))))⟩
  | crypt len => exact ⟨_, rfl, .inr (.inr (.inr (.inr (.inr ⟨rfl, rfl, _, rfl⟩))))⟩

/-- A state whose counter is the one `advance` gives holds the counter advanced by one block (43_aes_ctr.md R116). -/
theorem advancedFrom_of_eq {s t : State} (hc : t.ctr = s.advance.ctr) (hw : t.ctrWrap = s.advance.ctrWrap) :
    s.AdvancedFrom t := by
  have last : s.ctr = BitVec.allOnes 128 ↔ s.ctr.toNat = 2 ^ 128 - 1 := by
    rw [← BitVec.toNat_inj, BitVec.toNat_allOnes]
  have bound := s.ctr.isLt
  unfold State.AdvancedFrom
  rw [hc, hw]
  constructor
  · intro h
    simp [State.advance, last.2 h]
  · intro h
    simp only [State.advance, mt last.1 h, if_false, and_true]
    rw [BitVec.toNat_add]
    simp
    omega

/-! ### The step -/

/-- The engine has the turn: no input is left, or the next one gives it the turn. `t` is the state with that input
taken off. -/
theorem step_no_input {s : State} (h : s.inputs = []) : step s = engineStep s := by
  simp [step, machineStep, h]

theorem step_input {s : State} {x : Input} {rest : List Input} (h : s.inputs = x :: rest) :
    step s = takeInput x { s with inputs := rest } := by
  simp [step, machineStep, h]

/-- A read of a listed register is a step that answers its value. -/
theorem step_read {s : State} {r : Reg} {rest : List Input} (h : s.inputs = .access (Access.rd r) :: rest) :
    step s = .next (({ s with inputs := rest } : State).respond (.data (busRead r { s with inputs := rest }))) := by
  rw [step_input h, takeInput, busAccess_rd]

/-- A write to a listed register is a step that answers OKAY. -/
theorem step_write {s : State} {r : Reg} {v : Word} {rest : List Input}
    (h : s.inputs = .access (Access.wr r v) :: rest) :
    step s = .next ((busWrite r v { s with inputs := rest }).respond .okay) := by
  rw [step_input h, takeInput, busAccess_wr]

/-- A step that goes on is one of these: the engine waits or completes the pending command; an access; reset. -/
theorem step_cases {s t : State} (h : step s = .next t) :
    ∃ rest, (s.inputs = [] ∧ rest = [] ∨ ∃ x, s.inputs = x :: rest) ∧
      ((s.inputs.head? = none ∨ s.inputs.head? = some .engine) ∧ s.pending = none ∧ t = { s with inputs := rest } ∨
        (s.inputs.head? = none ∨ s.inputs.head? = some .engine) ∧
          (∃ i, s.pending = some i ∧ exec i { s with inputs := rest } = .next t) ∨
        (∃ a, s.inputs.head? = some (.access a) ∧ t = busAccess a { s with inputs := rest }) ∨
        s.inputs.head? = some .rst ∧ t = { s with inputs := rest }.takeReset) := by
  cases hi : s.inputs with
  | nil =>
    rw [step_no_input hi] at h
    refine ⟨[], .inl ⟨rfl, rfl⟩, ?_⟩
    have hs : { s with inputs := [] } = s := by rw [← hi]
    rw [hs]
    cases hp : s.pending with
    | none =>
      simp only [engineStep, hp, Host.Outcome.next.injEq] at h
      exact .inl ⟨.inl rfl, rfl, h.symm⟩
    | some i =>
      simp only [engineStep, hp] at h
      exact .inr (.inl ⟨.inl rfl, i, rfl, h⟩)
  | cons x rest =>
    rw [step_input hi] at h
    refine ⟨rest, .inr ⟨x, rfl⟩, ?_⟩
    cases x with
    | engine =>
      cases hp : s.pending with
      | none =>
        simp only [takeInput, engineStep, hp, Host.Outcome.next.injEq] at h
        exact .inl ⟨.inr rfl, rfl, h ▸ rfl⟩
      | some i =>
        simp only [takeInput, engineStep, hp] at h
        exact .inr (.inl ⟨.inr rfl, i, rfl, h⟩)
    | access a =>
      simp only [takeInput, Host.Outcome.next.injEq] at h
      exact .inr (.inr (.inl ⟨a, rfl, h.symm⟩))
    | rst =>
      simp only [takeInput, Host.Outcome.next.injEq] at h
      exact .inr (.inr (.inr ⟨rfl, h ▸ rfl⟩))

end Sys2Proof.Machine
end

