-- ==== Sys2Proof/Machine/HostAsm.lean ====
section
/-! DEFINITION. The host's side of the register window: host assembly (30_encoding.md R77 to R79, R82) as syntax, its
expansion into register accesses, the well-formedness checks, and the run of a host program beside the engine. This
language belongs to the host program, not to HTC-CORE (R78). -/

namespace Sys2Proof.Machine

/-- A label of a program: one the program names, or the fresh one of the WAIT on line `n` (log entry 13). -/
inductive HostLabel where
  | named (name : String)
  | wait (n : Nat)
  deriving DecidableEq, Repr

/-- The core statements of R78. -/
inductive HostStmt where
  /-- `WR <reg>, <imm32>`. -/
  | wr (r : Reg) (v : Word)
  /-- `RD <reg> -> %name`. -/
  | rd (r : Reg) (x : String)
  /-- `BNZ %name, mask, label`. -/
  | bnz (x : String) (mask : Word) (target : HostLabel)
  /-- `label:`. -/
  | label (l : HostLabel)
  deriving DecidableEq, Repr

/-- The statements a program is written in: R77, R78 and the pseudo-instructions of R79. -/
inductive AsmStmt where
  | wr (r : Reg) (v : Word)
  | rd (r : Reg) (x : String)
  | bnz (x : String) (mask : Word) (target : String)
  | label (l : String)
  /-- A command mnemonic (R77). -/
  | command (i : Instr)
  /-- A command mnemonic followed by `!` (R79). -/
  | commandWait (i : Instr)
  | ldkey (K : Block)
  | lddin (X : Block)
  | rdout (x : String)
  | rdpad (x : String)
  | rdctr (x : String)
  | wait
  | errclr
  deriving DecidableEq, Repr

/-- A statement and the number of its line. -/
abbrev AsmLine := Nat × AsmStmt

/-- The variable `%xk` of a four-word read (R79). -/
def wordVar (x : String) (k : Fin 4) : String := x ++ ["0", "1", "2", "3"].getD k.val ""

/-- The four writes of `LDKEY` and `LDDIN` (R79). -/
def fourWrites (r : Fin 4 → Reg) (X : Block) : List HostStmt :=
  [.wr (r 0) (wordOf X 0), .wr (r 1) (wordOf X 1), .wr (r 2) (wordOf X 2), .wr (r 3) (wordOf X 3)]

/-- The four reads of `RDOUT`, `RDPAD` and `RDCTR` (R79). -/
def fourReads (r : Fin 4 → Reg) (x : String) : List HostStmt :=
  [.rd (r 0) (wordVar x 0), .rd (r 1) (wordVar x 1), .rd (r 2) (wordVar x 2), .rd (r 3) (wordVar x 3)]

/-- `WAIT`: `w: RD STATUS -> %s; BNZ %s, 0x1, w` (R79), with a label of its own for each WAIT (log entry 13). -/
def waitStmts (n : Nat) : List HostStmt := [.label (.wait n), .rd .status "s", .bnz "s" 0x1 (.wait n)]

/-- `<cmd>`: one bus write to CMD (R77). -/
def commandStmts (i : Instr) : List HostStmt := [.wr .cmd (encode i)]

/-- The expansion of the statement on line `n` (R77 to R79). -/
def expandStmt (n : Nat) : AsmStmt → List HostStmt
  | .wr r v => [.wr r v]
  | .rd r x => [.rd r x]
  | .bnz x mask l => [.bnz x mask (.named l)]
  | .label l => [.label (.named l)]
  | .command i => commandStmts i
  | .commandWait i => commandStmts i ++ waitStmts n
  | .ldkey K => fourWrites .key K
  | .lddin X => fourWrites .din X
  | .rdout x => fourReads .dout x
  | .rdpad x => fourReads .pad x
  | .rdctr x => fourReads .ctr x
  | .wait => waitStmts n
  | .errclr => [.wr .status 0x80000000]

/-- The assembled program. -/
def assemble (p : List AsmLine) : List HostStmt := p.flatMap fun l => expandStmt l.1 l.2

/-! ### Well-formedness (R82) -/

/-- The checks of R82 (a) to (f). -/
inductive ProgramCheck where
  /-- (a) every mnemonic is one of R77, R78, R79. -/
  | mnemonic
  /-- (b) every `<reg>` is a name of R46. -/
  | register
  /-- (c) every immediate fits in 32 bits. -/
  | immediate
  /-- (d) every command operand is in 1..16. -/
  | operand
  /-- (e) every label is defined once. -/
  | labelOnce
  /-- (f) every BNZ names a defined label. -/
  | labelDefined
  /-- (f) every BNZ names a host variable that an earlier RD wrote, earlier in the text (log entry 26). -/
  | variableRead
  deriving DecidableEq, Repr

/-- The variables a core statement's RD writes. -/
def HostStmt.writtenVar : HostStmt → Option String
  | .wr _ _ => none
  | .rd _ x => some x
  | .bnz _ _ _ => none
  | .label _ => none

/-- The label a statement defines. -/
def AsmStmt.definedLabel : AsmStmt → Option String
  | .wr _ _ => none
  | .rd _ _ => none
  | .bnz _ _ _ => none
  | .label l => some l
  | .command _ => none
  | .commandWait _ => none
  | .ldkey _ => none
  | .lddin _ => none
  | .rdout _ => none
  | .rdpad _ => none
  | .rdctr _ => none
  | .wait => none
  | .errclr => none

/-- The check of R82 that a statement breaks, given the statements before it and the whole program. Checks (a), (b)
and (c) are the transcriber's: a term of this syntax meets them by its type. Two readings are the model's choices: a
label is looked for before the variable (log entry 25), and an earlier RD is one that stands earlier in the text (log
entry 26). -/
def AsmStmt.broken (before all : List AsmLine) : AsmStmt → Option ProgramCheck
  | .wr _ _ => none
  | .rd _ _ => none
  | .bnz x _ l =>
    if !(all.any fun q => q.2.definedLabel == some l) then some .labelDefined
    else if !((assemble before).any fun t => t.writtenVar == some x) then some .variableRead
    else none
  | .label l => if before.any fun q => q.2.definedLabel == some l then some .labelOnce else none
  | .command i => if i.wellFormed then none else some .operand
  | .commandWait i => if i.wellFormed then none else some .operand
  | .ldkey _ => none
  | .lddin _ => none
  | .rdout _ => none
  | .rdpad _ => none
  | .rdctr _ => none
  | .wait => none
  | .errclr => none

/-- The first line of `rest` that breaks a check, and the check. -/
def firstBroken (all before : List AsmLine) : List AsmLine → Option (Nat × ProgramCheck)
  | [] => none
  | l :: rest =>
    match l.2.broken before all with
    | some c => some (l.1, c)
    | none => firstBroken all (before ++ [l]) rest

/-- R82: `none` for a well-formed program, otherwise the first line that breaks a check, and the check (log entry
25). -/
def checkProgram (p : List AsmLine) : Option (Nat × ProgramCheck) := firstBroken p [] p

/-! ### The run of a host program -/

/-- Whose turn it is: completions fall between the host's accesses wherever the turns put them (log entry 14). -/
inductive Turn where
  | host
  | engine
  deriving DecidableEq, Repr

/-- Why the host stops. The core does not: the engine goes on (70_reset_and_hazards.md R180). -/
inductive HostStop where
  /-- The host's step is a fault (20_memory.md R54); `core` is the core after it. What the host's platform makes of the
  fault is its own concern. -/
  | fault (f : Fault) (core : State)
  /-- A BNZ whose label does not exist or whose variable no RD has written in this run: a BNZ of an ill-formed program
  (R82 (f)), or one of a well-formed program that a branch took past the RD (log entry 26). -/
  | illFormed
  deriving DecidableEq, Repr

/-- A host program in execution beside the core: what it has still to run is `prog` from `pc` on, unless it has
stopped. -/
structure HostRun where
  prog : List HostStmt
  pc : Nat
  vars : List (String × Word)
  core : State
  stopped : Option HostStop
  deriving DecidableEq, Repr

/-- One input of the core, performed by its step, which always goes on. -/
def feed (x : Input) (s : State) : State :=
  match step { s with inputs := x :: s.inputs } with
  | .next t => t
  | .fault _ => s
  | .refused _ => s

/-- The host's step (00_scope.md R9): one access and its answer, or a fault where the answer is the error response
(20_memory.md R54). -/
def hostAccess (a : Access) (s : State) : Except HostStop (Response × State) :=
  let t := feed (.access a) s
  match t.responses.headD .error with
  | .data w => .ok (.data w, t)
  | .okay => .ok (.okay, t)
  | .error => .error (.fault (.busError a) t)

/-- `BusRead(off(r))` by the host: the word the bus answered, and the core after it. -/
def hostRead (r : Reg) (s : State) : Except HostStop (Word × State) :=
  match hostAccess (Access.rd r) s with
  | .ok (.data w, t) => .ok (w, t)
  | .ok (_, t) => .error (.fault (.busError (Access.rd r)) t)
  | .error e => .error e

/-- `BusWrite(off(r), v)` by the host. -/
def hostWrite (r : Reg) (v : Word) (s : State) : Except HostStop State :=
  match hostAccess (Access.wr r v) s with
  | .ok (_, t) => .ok t
  | .error e => .error e

/-- The value of a host variable: what was last read into it. -/
def lookupVar (x : String) (vars : List (String × Word)) : Option Word :=
  (vars.find? fun p => p.1 == x).map Prod.snd

/-- The 16 bytes `le32^-1(x0) .. le32^-1(x3)` of four words (R79). -/
def blockOfReads (x0 x1 x2 x3 : Word) : Block := blockOfWords fun k => #v[x0, x1, x2, x3][k]

/-- `%x` of `RDOUT -> %x`, `RDPAD -> %x` and `RDCTR -> %x`: the bytes of `%x0 .. %x3` (R79); `none` until all four have
been read. -/
def blockVar (x : String) (vars : List (String × Word)) : Option Block :=
  match lookupVar (wordVar x 0) vars, lookupVar (wordVar x 1) vars, lookupVar (wordVar x 2) vars,
    lookupVar (wordVar x 3) vars with
  | some x0, some x1, some x2, some x3 => some (blockOfReads x0 x1 x2 x3)
  | _, _, _, _ => none

/-- The counter value `int_be(%x)` that `RDCTR -> %x` reads (R79). -/
def counterVar (x : String) (vars : List (String × Word)) : Option Counter := (blockVar x vars).map intBe

/-- Where a label stands in a program. -/
def labelAt (l : HostLabel) (prog : List HostStmt) : Option Nat := prog.findIdx? fun t => decide (t = .label l)

/-- The host stops; where its step was a fault, the core is the one after it. -/
def HostRun.stop (e : HostStop) (h : HostRun) : HostRun :=
  match e with
  | .fault _ t => { h with core := t, stopped := some e }
  | .illFormed => { h with stopped := some e }

/-- The host runs one statement (R78). A BNZ whose variable no RD has written in this run stops the program (log entry
26). -/
def HostRun.perform (c : HostStmt) (h : HostRun) : HostRun :=
  match c with
  | .wr r v =>
    match hostWrite r v h.core with
    | .ok t => { h with pc := h.pc + 1, core := t }
    | .error e => h.stop e
  | .rd r x =>
    match hostRead r h.core with
    | .ok (w, t) => { h with pc := h.pc + 1, vars := (x, w) :: h.vars, core := t }
    | .error e => h.stop e
  | .bnz x mask l =>
    match lookupVar x h.vars, labelAt l h.prog with
    | some w, some k => { h with pc := if w &&& mask ≠ 0 then k else h.pc + 1 }
    | _, _ => h.stop .illFormed
  | .label _ => { h with pc := h.pc + 1 }

/-- The host's turn: its next statement; nothing once the program is over or has stopped (log entry 14). -/
def HostRun.hostTurn (h : HostRun) : HostRun :=
  match h.stopped, h.prog[h.pc]? with
  | none, some c => h.perform c
  | none, none => h
  | some _, _ => h

/-- One turn. The engine has its turns whether or not the host has stopped. -/
def HostRun.turn (h : HostRun) (t : Turn) : HostRun :=
  match t with
  | .host => h.hostTurn
  | .engine => { h with core := feed .engine h.core }

/-- Turn after turn. -/
def HostRun.run (ts : List Turn) (h : HostRun) : HostRun := ts.foldl HostRun.turn h

/-- The 16 bytes of the variable `%x` (R79). -/
def HostRun.block (h : HostRun) (x : String) : Option Block := blockVar x h.vars

/-- The counter value of the variable `%x` (R79). -/
def HostRun.counter (h : HostRun) (x : String) : Option Counter := counterVar x h.vars

/-- A program at its first statement, beside a core. -/
def HostRun.start (p : List AsmLine) (s : State) : HostRun := ⟨assemble p, 0, [], s, none⟩

end Sys2Proof.Machine
end

