-- ==== Sys2Proof/Machine/HostText.lean ====
section
/-! DEFINITION. Host assembly as text: the disassembler of 30_encoding.md R81, and the transcriber that reads a program
in the syntax of R77 to R79 and refuses it by line and check (R82). -/

namespace Sys2Proof.Machine

/-! ### The disassembler (R81) -/

/-- A digit 0 to 15 in upper-case hexadecimal. -/
def upperHexDigit (n : Nat) : Char := "0123456789ABCDEF".toList.getD n '0'

/-- `%08X` (R81). -/
def hex8 (v : Word) : List Char :=
  [7, 6, 5, 4, 3, 2, 1, 0].map fun j => upperHexDigit (v.extractLsb' (4 * j) 4).toNat

/-- A command as its mnemonic, LEN in decimal for the length-using ones (R81). -/
def Instr.render (i : Instr) : String :=
  match i with
  | .nop => i.mnemonic
  | .ctrClr => i.mnemonic
  | .keyClr => i.mnemonic
  | .md5 => i.mnemonic
  | .whiten len => i.mnemonic ++ " " ++ toString len.toNat
  | .ksgen => i.mnemonic
  | .ctrxor len => i.mnemonic ++ " " ++ toString len.toNat
  | .crypt len => i.mnemonic ++ " " ++ toString len.toNat

/-- The disassembler (R81): every word the decoder refuses prints as `.word 0x%08X` and its verdict. The blank between
the two is the model's choice (log entry 28). -/
def disassemble (v : Word) : String :=
  match decode v with
  | .cmd i => Instr.render i
  | .illegal => ".word 0x" ++ String.ofList (hex8 v) ++ " ; illegal"
  | .badLen => ".word 0x" ++ String.ofList (hex8 v) ++ " ; badlen"

/-! ### Numbers, names and tokens -/

/-- The value of a hexadecimal digit of either case. -/
def hexValue (c : Char) : Option Nat :=
  if '0' ≤ c ∧ c ≤ '9' then some (c.toNat - '0'.toNat)
  else if 'a' ≤ c ∧ c ≤ 'f' then some (c.toNat - 'a'.toNat + 10)
  else if 'A' ≤ c ∧ c ≤ 'F' then some (c.toNat - 'A'.toNat + 10)
  else none

/-- The value of a decimal digit. -/
def decValue (c : Char) : Option Nat :=
  if '0' ≤ c ∧ c ≤ '9' then some (c.toNat - '0'.toNat) else none

/-- Reads digits to a base, most significant first, onto an accumulated value. -/
def readDigits (base : Nat) (value : Char → Option Nat) : Nat → List Char → Option Nat
  | n, [] => some n
  | n, c :: cs =>
    match value c with
    | some d => readDigits base value (base * n + d) cs
    | none => none

/-- A number in hex (`0x...`) or decimal (R78). The form of the prefix and that leading zeros may stand in either base are
the model's choices (log entry 13). -/
def readNumber : List Char → Option Nat
  | [] => none
  | '0' :: 'x' :: [] => none
  | '0' :: 'x' :: cs => readDigits 16 hexValue 0 cs
  | cs => readDigits 10 decValue 0 cs

/-- An `<imm32>`: a number that fits in 32 bits (R78, R82 (c)). -/
def readImm (cs : List Char) : Option Word :=
  match readNumber cs with
  | some n => if n < 2 ^ 32 then some (BitVec.ofNat 32 n) else none
  | none => none

/-- The bytes that pairs of hexadecimal digits list. -/
def readHexBytes : List Char → Option (List Byte)
  | [] => some []
  | [_] => none
  | a :: b :: cs =>
    match hexValue a, hexValue b, readHexBytes cs with
    | some x, some y, some bs => some (BitVec.ofNat 8 (16 * x + y) :: bs)
    | _, _, _ => none

/-- The 16 bytes that 32 hexadecimal digits list (R79). -/
def readBlock (cs : List Char) : Option Block :=
  match readHexBytes cs with
  | some bs => if h : bs.length = 16 then some (Vector.ofFn fun i => bs[i.val]) else none
  | none => none

/-- The name of a register in R46. -/
def Reg.name : Reg → String
  | .id => "ID"
  | .cmd => "CMD"
  | .status => "STATUS"
  | .key k => "KEY" ++ ["0", "1", "2", "3"].getD k.val ""
  | .ctr k => "CTR" ++ ["0", "1", "2", "3"].getD k.val ""
  | .din k => "DIN" ++ ["0", "1", "2", "3"].getD k.val ""
  | .dout k => "DOUT" ++ ["0", "1", "2", "3"].getD k.val ""
  | .pad k => "PAD" ++ ["0", "1", "2", "3"].getD k.val ""

/-- The register a name stands for (R78). -/
def regNamed (name : String) : Option Reg := Reg.all.find? fun r => r.name == name

/-- What separates tokens: blanks, tabs, carriage returns and the comma (log entry 13). -/
def isGap (c : Char) : Bool := c == ' ' || c == ',' || c == '\t' || c == '\r'

/-- A line's text before its comment (R78: comments start with `;`). -/
def uncomment (cs : List Char) : List Char := cs.takeWhile (· ≠ ';')

/-- The tokens of a line, `cur` being the token begun so far, reversed. -/
def tokensFrom (cur : List Char) : List Char → List (List Char)
  | [] => if cur.isEmpty then [] else [cur.reverse]
  | c :: cs =>
    if isGap c then
      if cur.isEmpty then tokensFrom [] cs else cur.reverse :: tokensFrom [] cs
    else tokensFrom (c :: cur) cs

/-- The tokens of a line. -/
def tokens (cs : List Char) : List (List Char) := tokensFrom [] (uncomment cs)

/-- The lines of a text, `cur` being the line begun so far, reversed. -/
def linesFrom (cur : List Char) : List Char → List (List Char)
  | [] => [cur.reverse]
  | c :: cs => if c == '\n' then cur.reverse :: linesFrom [] cs else linesFrom (c :: cur) cs

/-! ### The transcriber -/

/-- A host variable `%name`. That a name is any token's characters, at least one, is the model's choice (log entry
29). -/
def readVar : List Char → Option String
  | '%' :: c :: cs => some (String.ofList (c :: cs))
  | _ => none

/-- The five commands without operand (R77). -/
def plainCommand (m : String) : Option Instr :=
  [Instr.nop, .ctrClr, .keyClr, .md5, .ksgen].find? fun i => i.mnemonic == m

/-- The three commands with an operand (R77). -/
def sizedCommand (m : String) : Option (BitVec 5 → Instr) :=
  if m = "WHITEN" then some .whiten
  else if m = "CTRXOR" then some .ctrxor
  else if m = "CRYPT" then some .crypt
  else none

/-- The decimal operand `n` in 1..16 of a length-using command (R77, R82 (d)). That it may have leading zeros is the
model's choice (log entry 13). -/
def readLen (cs : List Char) : Option (BitVec 5) :=
  match readDigits 10 decValue 0 cs with
  | some n => if 1 ≤ n ∧ n ≤ 16 then some (BitVec.ofNat 5 n) else none
  | none => none

/-- A command statement (R77), with `!` or without (R79). That the `!` is a token of its own, and that
any other form of the operands breaks check (d), are the model's choices (log entry 13). -/
def readCommand (m : String) (args : List (List Char)) : Except ProgramCheck AsmStmt :=
  match plainCommand m, sizedCommand m, args with
  | some i, _, [] => .ok (.command i)
  | some i, _, [['!']] => .ok (.commandWait i)
  | some _, _, _ => .error .operand
  | none, some f, [n] =>
    match readLen n with
    | some len => .ok (.command (f len))
    | none => .error .operand
  | none, some f, [n, ['!']] =>
    match readLen n with
    | some len => .ok (.commandWait (f len))
    | none => .error .operand
  | none, some _, _ => .error .operand
  | none, none, _ => .error .mnemonic

/-- A four-word read `m -> %x` (R79); another form breaks check (a) (log entry 24). -/
def readFour (stmt : String → AsmStmt) (args : List (List Char)) : Except ProgramCheck AsmStmt :=
  match args with
  | [['-', '>'], x] =>
    match readVar x with
    | some x => .ok (stmt x)
    | none => .error .mnemonic
  | _ => .error .mnemonic

/-- A four-word write of 32 hex digits (R79). That an operand which is not 32 hexadecimal digits breaks check (c) is the
model's choice (log entry 24). -/
def readLoad (stmt : Block → AsmStmt) (args : List (List Char)) : Except ProgramCheck AsmStmt :=
  match args with
  | [d] =>
    match readBlock d with
    | some X => .ok (stmt X)
    | none => .error .immediate
  | _ => .error .mnemonic

/-- `WR <reg>, <imm32>` (R78). That an immediate which is no number breaks check (c), and that the register is checked
first, are the model's choices (log entries 24 and 25). -/
def readWr (args : List (List Char)) : Except ProgramCheck AsmStmt :=
  match args with
  | [r, v] =>
    match regNamed (String.ofList r), readImm v with
    | none, _ => .error .register
    | some _, none => .error .immediate
    | some r, some v => .ok (.wr r v)
  | _ => .error .mnemonic

/-- `RD <reg> -> %name` (R78). A target that is no host variable breaks check (a), after the register's check (log
entries 24 and 25). -/
def readRd (args : List (List Char)) : Except ProgramCheck AsmStmt :=
  match args with
  | [r, ['-', '>'], x] =>
    match regNamed (String.ofList r), readVar x with
    | none, _ => .error .register
    | some _, none => .error .mnemonic
    | some r, some x => .ok (.rd r x)
  | _ => .error .mnemonic

/-- `BNZ %name, mask, label` (R78). That a mask which is no number breaks check (c), and that the variable's form is
checked first, are the model's choices (log entries 24 and 25), and so is that any token may name a label (log entry
29). -/
def readBnz (args : List (List Char)) : Except ProgramCheck AsmStmt :=
  match args with
  | [x, mask, l] =>
    match readVar x, readImm mask with
    | none, _ => .error .mnemonic
    | some _, none => .error .immediate
    | some x, some mask => .ok (.bnz x mask (String.ofList l))
  | _ => .error .mnemonic

/-- A statement without operands; with one it breaks check (a) (log entry 24). -/
def readBare (stmt : AsmStmt) (args : List (List Char)) : Except ProgramCheck AsmStmt :=
  if args.isEmpty then .ok stmt else .error .mnemonic

/-- A statement from its mnemonic and its other tokens (R77 to R79). -/
def readStmt (m : String) (args : List (List Char)) : Except ProgramCheck AsmStmt :=
  if m = "WR" then readWr args
  else if m = "RD" then readRd args
  else if m = "BNZ" then readBnz args
  else if m = "LDKEY" then readLoad .ldkey args
  else if m = "LDDIN" then readLoad .lddin args
  else if m = "RDOUT" then readFour .rdout args
  else if m = "RDPAD" then readFour .rdpad args
  else if m = "RDCTR" then readFour .rdctr args
  else if m = "WAIT" then readBare .wait args
  else if m = "ERRCLR" then readBare .errclr args
  else readCommand m args

/-- The name before the final `:` of a label token (R78). That a name is any token's characters, at least one, is the
model's choice (log entry 29). -/
def labelName (t : List Char) : Option String :=
  match t.reverse with
  | ':' :: c :: cs => some (String.ofList (c :: cs).reverse)
  | _ => none

/-- The statements of a line: a label, a statement, a label and a statement, or none. That a line takes at most one
label is the model's choice: a second one breaks check (a) (log entry 13). -/
def readLine (ts : List (List Char)) : Except ProgramCheck (List AsmStmt) :=
  match ts with
  | [] => .ok []
  | t :: rest =>
    match labelName t, rest with
    | some l, [] => .ok [.label l]
    | some l, m :: args => (readStmt (String.ofList m) args).map fun s => [.label l, s]
    | none, args => (readStmt (String.ofList t) args).map fun s => [s]

/-- Reads the lines from number `n` on. -/
def readLines : Nat → List (List Char) → Except (Nat × ProgramCheck) (List AsmLine)
  | _, [] => .ok []
  | n, l :: ls =>
    match readLine (tokens l) with
    | .error c => .error (n, c)
    | .ok stmts => (readLines (n + 1) ls).map fun rest => stmts.map (fun s => (n, s)) ++ rest

/-- The transcriber (R82): a well-formed program, or the line, counted from 1, and the check that refuse it. Which one is
named when a program breaks several is the model's choice (log entry 25): the reading checks (a) to (d) of every line
come before any (e) or (f). -/
def transcribe (text : String) : Except (Nat × ProgramCheck) (List AsmLine) :=
  match readLines 1 (linesFrom [] text.toList) with
  | .error e => .error e
  | .ok p =>
    match checkProgram p with
    | some e => .error e
    | none => .ok p

end Sys2Proof.Machine
end

