-- ==== Sys2Proof/Machine/HostProc.lean ====
section
/-! DEFINITION. The host procedures around the core (70_reset_and_hazards.md R168 to R173): target length, timestamp
conversion, encryption, decryption, strip and hex. They are host software (00_scope.md R4); they reach the core only
through its register window, by its step. -/

namespace Sys2Proof.Machine

/-- Why a host procedure fails. -/
inductive HostError where
  /-- The text does not have the form that R169 or R173 asks for. -/
  | formatError
  /-- The milliseconds are negative or do not fit in 16 bytes (R169). -/
  | rangeError
  /-- A hex text of odd length, or of a length that is no multiple of 16 bytes (R173). -/
  | lengthError
  /-- The core recorded an error; the message is aborted (R170, 60_exceptions.md R162), with the core as the host found
  it. -/
  | aborted (code : BitVec 4) (core : State)
  /-- The host's step was a fault (20_memory.md R54). -/
  | stopped (e : HostStop)
  deriving DecidableEq, Repr

/-! ### Padding and stripping (R168, R172) -/

/-- `TargetLen(n)` (R168). -/
def targetLen (n : Nat) : Nat := if n < 128 then 128 else 16 * ((n + 15) / 16)

/-- `M ++ zeros(TargetLen(|M|) - |M|)` (R168, R170). -/
def padMessage (M : List Byte) : List Byte := M ++ List.replicate (targetLen M.length - M.length) 0

/-- `Strip(P)`: all trailing 0x00 bytes removed, and nothing else (R172). -/
def strip (P : List Byte) : List Byte := (P.reverse.dropWhile (· == 0)).reverse

/-! ### Hex (R173) -/

/-- A digit 0 to 15 in lower-case hexadecimal. -/
def lowerHexDigit (n : Nat) : Char := "0123456789abcdef".toList.getD n '0'

/-- `Hex(C)`: two lower-case hexadecimal digits per byte, in byte order (R173). -/
def hexOf (C : List Byte) : List Char :=
  C.flatMap fun b => [lowerHexDigit (b.toNat / 16), lowerHexDigit (b.toNat % 16)]

/-- `Unhex(H)` (R173): digits of either case; the order of the checks is log entry 16. -/
def unhex (H : List Char) : Except HostError (List Byte) :=
  if H.length % 2 ≠ 0 then .error .lengthError
  else
    match readHexBytes H with
    | none => .error .formatError
    | some bs => if bs.length % 16 ≠ 0 then .error .lengthError else .ok bs

/-! ### Timestamps (R169) -/

/-- A calendar date and time of day with its six-digit fraction. -/
structure Timestamp where
  year : Nat
  month : Nat
  day : Nat
  hour : Nat
  minute : Nat
  second : Nat
  micros : Nat
  deriving DecidableEq, Repr

/-- `n` decimal digits at the head of a text, and what follows them. -/
def takeDigits : Nat → List Char → Option (Nat × List Char)
  | 0, cs => some (0, cs)
  | n + 1, c :: cs =>
    match decValue c, takeDigits n cs with
    | some d, some (v, rest) => some (d * 10 ^ n + v, rest)
    | _, _ => none
  | _ + 1, [] => none

/-- The character `c` at the head of a text, and what follows it. -/
def takeChar (c : Char) : List Char → Option (List Char)
  | [] => none
  | d :: cs => if d == c then some cs else none

/-- Gregorian leap years. -/
def isLeapYear (y : Nat) : Bool := y % 4 == 0 && (y % 100 != 0 || y % 400 == 0)

/-- The number of days of a month. -/
def daysInMonth (y m : Nat) : Nat :=
  if m = 2 then (if isLeapYear y then 29 else 28)
  else if m = 4 ∨ m = 6 ∨ m = 9 ∨ m = 11 then 30
  else 31

/-- The fields name a calendar date and a time of day (log entry 15). -/
def Timestamp.valid (t : Timestamp) : Bool :=
  decide (1 ≤ t.month ∧ t.month ≤ 12 ∧ 1 ≤ t.day ∧ t.day ≤ daysInMonth t.year t.month ∧ t.hour < 24 ∧ t.minute < 60 ∧
    t.second < 60)

/-- The text form `YYYY-MM-DD HH:MM:SS.ffffff`, exactly (R169). -/
def parseTimestamp (T : List Char) : Option Timestamp := do
  let (year, T) ← takeDigits 4 T
  let T ← takeChar '-' T
  let (month, T) ← takeDigits 2 T
  let T ← takeChar '-' T
  let (day, T) ← takeDigits 2 T
  let T ← takeChar ' ' T
  let (hour, T) ← takeDigits 2 T
  let T ← takeChar ':' T
  let (minute, T) ← takeDigits 2 T
  let T ← takeChar ':' T
  let (second, T) ← takeDigits 2 T
  let T ← takeChar '.' T
  let (micros, T) ← takeDigits 6 T
  if T.isEmpty then some ⟨year, month, day, hour, minute, second, micros⟩ else none

/-- Days from 1970-01-01 to a date of the Gregorian calendar: years begin in March, so that a leap day comes last,
and are counted from the year -400, so that no subtraction underflows. -/
def daysFromEpoch (y m d : Nat) : Int :=
  let y' := y + 400 - (if m ≤ 2 then 1 else 0)
  let days := 365 * y' + y' / 4 - y' / 100 + y' / 400 + (153 * ((m + 9) % 12) + 2) / 5 + d - 1
  (days : Int) - 865565

/-- `S`: whole seconds since 1970-01-01 00:00:00 UTC of a timestamp read in the zone `TZ_OFFSET` seconds ahead of UTC
(R169, 00_scope.md R8). -/
def Timestamp.seconds (t : Timestamp) (tzOffset : Int) : Int :=
  daysFromEpoch t.year t.month t.day * 86400 + t.hour * 3600 + t.minute * 60 + t.second - tzOffset

/-- The values of the host parameter `MS_MODE` (R169). -/
inductive MsMode where
  | pythonFloat
  | exact
  deriving DecidableEq, Repr

/-- The two host parameters of 00_scope.md R8: `TZ_OFFSET` is open (log entry 18), `MS_MODE` is `python_float` unless the
host says otherwise. -/
structure HostParams where
  tzOffset : Int
  msMode : MsMode := .pythonFloat
  deriving DecidableEq, Repr

/-- A rational number `num / den`; the values of IEEE 754 doubles among them. -/
structure Ratio where
  num : Int
  den : Nat
  deriving DecidableEq, Repr

/-- `n / d` rounded to a whole number, ties to even. -/
def divRoundEven (n d : Nat) : Nat :=
  let q := n / d
  let r := n % d
  if 2 * r > d ∨ (2 * r = d ∧ q % 2 = 1) then q + 1 else q

/-- `n / d` divided by `2^k`, as a numerator and a denominator. -/
def scaleDown (n d : Nat) (k : Int) : Nat × Nat :=
  if 0 ≤ k then (n, d * 2 ^ k.toNat) else (n * 2 ^ (-k).toNat, d)

/-- The exponent `k` with `2^52 <= n/d / 2^k < 2^53`, for `n / d > 0`. -/
def binaryExponent (n d : Nat) : Int :=
  let k : Int := (Nat.log2 n : Int) - (Nat.log2 d : Int) - 52
  let (a, b) := scaleDown n d k
  if a < 2 ^ 52 * b then k - 1 else k

/-- `fl` on `n / d >= 0`: the nearest number with a 53-bit significand, ties to even (R169). -/
def flNat (n d : Nat) : Ratio :=
  if n = 0 then ⟨0, 1⟩
  else
    let k := binaryExponent n d
    let (a, b) := scaleDown n d k
    let q := divRoundEven a b
    if 0 ≤ k then ⟨q * 2 ^ k.toNat, 1⟩ else ⟨q, 2 ^ (-k).toNat⟩

/-- `fl` (R169): rounding to the nearest IEEE 754 double; the numbers of R169 are far from its exponent limits
(log entry 17). -/
def fl (x : Ratio) : Ratio :=
  let y := flNat x.num.natAbs x.den
  if x.num < 0 then ⟨-y.num, y.den⟩ else y

/-- The sum of two rational numbers. -/
def Ratio.add (x y : Ratio) : Ratio := ⟨x.num * y.den + y.num * x.den, x.den * y.den⟩

/-- The milliseconds of `S` seconds and `us` microseconds (R169). -/
def millisOf (mode : MsMode) (S : Int) (us : Nat) : Int :=
  match mode with
  | .exact => S * 1000 + ((us / 1000 : Nat) : Int)
  | .pythonFloat =>
    let t := fl ((fl ⟨S, 1⟩).add (fl ⟨us, 10 ^ 6⟩))
    let p := fl ⟨t.num * 1000, t.den⟩
    p.num.tdiv p.den

/-- `Millis(T)` (R169): the millisecond count that reaches the core. -/
def millis (params : HostParams) (T : List Char) : Except HostError Counter :=
  match parseTimestamp T with
  | none => .error .formatError
  | some t =>
    if t.valid then
      let ms := millisOf params.msMode (t.seconds params.tzOffset) t.micros
      if ms < 0 ∨ 2 ^ 128 ≤ ms then .error .rangeError else .ok (BitVec.ofInt 128 ms)
    else .error .formatError

/-! ### Driving the core (R170, R171) -/

/-- A host access's failure as a procedure's. -/
def liftStop {α : Type} : Except HostStop α → Except HostError α
  | .ok a => .ok a
  | .error e => .error (.stopped e)

/-- Four writes, `LDKEY` and `LDDIN` (30_encoding.md R79). -/
def hostLoad (r : Fin 4 → Reg) (X : Block) (s : State) : Except HostStop State := do
  let s ← hostWrite (r 0) (wordOf X 0) s
  let s ← hostWrite (r 1) (wordOf X 1) s
  let s ← hostWrite (r 2) (wordOf X 2) s
  hostWrite (r 3) (wordOf X 3) s

/-- Four reads, `RDOUT`, `RDPAD` and `RDCTR` (30_encoding.md R79). -/
def hostFetch (r : Fin 4 → Reg) (s : State) : Except HostStop (Block × State) := do
  let (w0, s) ← hostRead (r 0) s
  let (w1, s) ← hostRead (r 1) s
  let (w2, s) ← hostRead (r 2) s
  let (w3, s) ← hostRead (r 3) s
  .ok (blockOfReads w0 w1 w2 w3, s)

/-- `WAIT` (30_encoding.md R79): poll STATUS until BUSY = 0. At most `polls` polls see BUSY = 1 before the engine takes
its step; `polls` stands for the open latency (R179). -/
def hostWait : Nat → State → Except HostStop State
  | 0, s => do
    let s := feed .engine s
    let (_, s) ← hostRead .status s
    .ok s
  | n + 1, s => do
    let (w, s) ← hostRead .status s
    if w.getLsbD 0 then hostWait n s else .ok s

/-- `<cmd> !` (30_encoding.md R79). -/
def hostCommand (i : Instr) (polls : Nat) (s : State) : Except HostStop State := do
  let s ← hostWrite .cmd (encode i) s
  hostWait polls s

/-- `CTR_CLR !; LDDIN be128(ms); MD5 !` (R170, R171). -/
def openMessage (ms : Counter) (polls : Nat → Nat) (s : State) : Except HostStop State := do
  let s ← hostCommand .ctrClr (polls 1) s
  let s ← hostLoad .din (be128 ms) s
  hostCommand .md5 (polls 2) s

/-- The start of an encryption (R170): WAIT, then the message is opened. -/
def startMessage (ms : Counter) (polls : Nat → Nat) (s : State) : Except HostStop State := do
  let s ← hostWait (polls 0) s
  openMessage ms polls s

/-- One block of a message: `LDDIN X; CRYPT len !; RDOUT`, then the check of STATUS.ERR (R170, R171, log entry 23). -/
def cryptBlock (len : BitVec 5) (X : Block) (polls : Nat) (s : State) : Except HostError (Block × State) := do
  let s ← liftStop (hostLoad .din X s)
  let s ← liftStop (hostCommand (.crypt len) polls s)
  let (Y, s) ← liftStop (hostFetch .dout s)
  let (w, s) ← liftStop (hostRead .status s)
  if w.extractLsb' 8 4 = 0 then .ok (Y, s) else .error (.aborted (w.extractLsb' 8 4) s)

/-- The blocks of a message, one after the other; `polls j` is the wait of block `j`. -/
def cryptBlocks (polls : Nat → Nat) : Nat → List (BitVec 5 × Block) → State → Except HostError (List Block × State)
  | _, [], s => .ok ([], s)
  | j, (len, X) :: rest, s => do
    let (Y, s) ← cryptBlock len X (polls j) s
    let (Ys, s) ← cryptBlocks polls (j + 1) rest s
    .ok (Y :: Ys, s)

/-- `L` bytes and zeros after them (R171). -/
def blockOf (bs : List Byte) : Block := Vector.ofFn fun i => bs.getD i.val 0

/-- The first `n` 16-byte pieces of a text, the last one shorter where the text ends. -/
def pieces : Nat → List Byte → List (List Byte)
  | 0, _ => []
  | n + 1, bs => bs.take 16 :: pieces n (bs.drop 16)

/-- A message's blocks with their lengths, `ceil(|C| / 16)` of them (R171). -/
def messageBlocks (bs : List Byte) : List (BitVec 5 × Block) :=
  (pieces ((bs.length + 15) / 16) bs).map fun p => (BitVec.ofNat 5 p.length, blockOf p)

/-- The bytes that are kept of the outputs: the first `L` of each (R171). -/
def keptBytes (lens : List (BitVec 5 × Block)) (out : List Block) : List Byte :=
  (List.zipWith (fun p Y => Y.toList.take p.1.toNat) lens out).flatten

/-- The transform of a message's bytes, both directions (R170, R171), after the start of the message. -/
def cryptMessage (polls : Nat → Nat) (bs : List Byte) (s : State) : Except HostError (List Byte × State) := do
  let (out, s) ← cryptBlocks (fun j => polls (j + 3)) 0 (messageBlocks bs) s
  .ok (keptBytes (messageBlocks bs) out, s)

/-- Encryption of the message `M` with timestamp text `T` (R170). -/
def encryptMessage (params : HostParams) (T : List Char) (M : List Byte) (polls : Nat → Nat) (s : State) :
    Except HostError (List Char × State) := do
  let ms ← millis params T
  let s ← liftStop (startMessage ms polls s)
  let (C, s) ← cryptMessage polls (padMessage M) s
  .ok (hexOf C, s)

/-- Decryption of the ciphertext bytes `C` with timestamp text `T` (R171), of any length: the last block may be a
partial one. -/
def decryptBytes (params : HostParams) (T : List Char) (C : List Byte) (polls : Nat → Nat) (s : State) :
    Except HostError (List Byte × State) := do
  let ms ← millis params T
  let s ← liftStop (openMessage ms polls s)
  let (P, s) ← cryptMessage polls C s
  .ok (strip P, s)

/-- Decryption of the persisted pair `T`, `H` (R171), with the length check of R173. -/
def decryptMessage (params : HostParams) (T H : List Char) (polls : Nat → Nat) (s : State) :
    Except HostError (List Byte × State) := do
  let C ← unhex H
  decryptBytes params T C polls s

/-! ### The persisted file (R173) -/

/-- White space inside a persisted line: blank, tab and carriage return. The spec names no characters; these are the
model's choice (log entry 27). -/
def isBlank (c : Char) : Bool := c == ' ' || c == '\t' || c == '\r'

/-- A persisted line `<timestamp> <hex>` split at its last run of white space (R173): the timestamp holds a space of
its own. That a line without white space is all hex text, with an empty timestamp, is the model's choice (log entry
27). -/
def splitLine (line : List Char) : List Char × List Char :=
  let r := line.reverse
  let H := (r.takeWhile fun c => !isBlank c).reverse
  let T := ((r.dropWhile fun c => !isBlank c).dropWhile isBlank).reverse
  (T, H)

/-- The persisted line of a timestamp and a hex ciphertext (R173), with one blank between them (log entry 27). -/
def persistLine (T H : List Char) : List Char := T ++ ' ' :: H

/-- The two lines of a persisted file, `test` and `flag`. What counts as two lines is the model's choice (log entry 22):
the lines are the pieces between line feeds, and an empty third piece after a last line feed is no line; so one line
that ends in a line feed is two lines, the second one empty. -/
def twoLines (text : List Char) : Option (List Char × List Char) :=
  match linesFrom [] text with
  | [a, b] => some (a, b)
  | [a, b, []] => some (a, b)
  | _ => none

/-- The core on which the host goes on after a message: after an abort, with ERR cleared (60_exceptions.md R162); after
a fault of the host's step, as that step left it; the other errors come before the host's first access. -/
def coreAfter {α : Type} (s : State) : Except HostError (α × State) → State
  | .ok (_, t) => t
  | .error (.stopped (.fault _ t)) => t
  | .error (.aborted _ t) =>
    match hostWrite .status 0x80000000 t with
    | .ok u => u
    | .error _ => t
  | .error _ => s

/-- Decryption of a persisted file (R173): each line gives its message or the reason why it failed, and a line that
fails does not keep the other one from being processed. -/
def decryptFile (params : HostParams) (text : List Char) (polls polls' : Nat → Nat) (s : State) :
    Except HostError (Except HostError (List Byte) × Except HostError (List Byte) × State) :=
  match twoLines text with
  | none => .error .formatError
  | some (a, b) =>
    let first := decryptMessage params (splitLine a).1 (splitLine a).2 polls s
    let t := coreAfter s first
    let second := decryptMessage params (splitLine b).1 (splitLine b).2 polls' t
    .ok (first.map Prod.fst, second.map Prod.fst, coreAfter t second)

end Sys2Proof.Machine
end

