-- ==== Sys2Proof/Certificates/Slice0/Obligations.lean ====
section
/-! DEFINITION. The statements for the provers, from the numbered rules of spec/. -/

open Sys2Proof Sys2Proof.Machine

/-! ### Encoding (30_encoding.md) -/

/-- Decoding and encoding agree in both directions, with every LEN the encoding admits: an encoded legal command
decodes to itself, and a word that decodes to a command is that legal command's word (R67, R72, R76). -/
def Obligations.DecodeAndEncodeAgree : Prop :=
  (∀ i : Instr, i.wellFormed = true → decode (encode i) = .cmd i) ∧
    ∀ (v : Word) (i : Instr), decode v = .cmd i → i.wellFormed = true ∧ encode i = v

/-- The decoder's verdicts in terms of the fields OP = v[3:0], LEN = v[8:4], RSVD = v[31:9], and the error each refusal
raises once BUSY and ERR have passed (R76). -/
def Obligations.DecoderVerdicts : Prop :=
  ∀ v : Word,
    (decode v = .illegal ↔
      v.extractLsb' 9 23 ≠ 0#23 ∨ 8 ≤ (v.extractLsb' 0 4).toNat ∨
        ((v.extractLsb' 0 4).toNat ∈ [0, 1, 2, 3, 5] ∧ v.extractLsb' 4 5 ≠ 0#5)) ∧
    (decode v = .badLen ↔
      v.extractLsb' 9 23 = 0#23 ∧ (v.extractLsb' 0 4).toNat ∈ [4, 6, 7] ∧
        ¬(1 ≤ (v.extractLsb' 4 5).toNat ∧ (v.extractLsb' 4 5).toNat ≤ 16)) ∧
    (∀ i, decode v = .cmd i → i.op = v.extractLsb' 0 4 ∧ i.len = v.extractLsb' 4 5) ∧
    (∀ s : State, s.err = 0#4 → decode v = .illegal → (issueCommand v s).err = 1#4) ∧
    (∀ s : State, s.err = 0#4 → decode v = .badLen → (issueCommand v s).err = 3#4)

/-- Words written out from R67 and R72 decode to the commands they stand for, and words of R80 are refused. -/
def Obligations.SampleWordsDecode : Prop :=
  decode 0x00000000 = .cmd .nop ∧ decode 0x00000001 = .cmd .ctrClr ∧ decode 0x00000002 = .cmd .keyClr ∧
    decode 0x00000003 = .cmd .md5 ∧ decode 0x00000054 = .cmd (.whiten 5) ∧ decode 0x00000005 = .cmd .ksgen ∧
    decode 0x00000016 = .cmd (.ctrxor 1) ∧ decode 0x00000107 = .cmd (.crypt 16) ∧ decode 0x00000008 = .illegal ∧
    decode 0x00000013 = .illegal ∧ decode 0x00000004 = .badLen ∧ decode 0x00000117 = .badLen ∧
    decode 0x00000307 = .illegal

/-- Exactly 53 words are legal, they are the listed ones, each is the command R72 says, and every other word written
to CMD with BUSY = 0 and ERR = 0 is rejected with ERR_ILLEGAL or ERR_LEN (R72). -/
def Obligations.LegalWordsAreThe53 : Prop :=
  legalWords.length = 53 ∧ legalWords.Nodup ∧ (∀ v : Word, (∃ i, decode v = .cmd i) ↔ v ∈ legalWords) ∧
    (decode 0x00000000 = .cmd .nop ∧ decode 0x00000001 = .cmd .ctrClr ∧ decode 0x00000002 = .cmd .keyClr ∧
      decode 0x00000003 = .cmd .md5 ∧ decode 0x00000005 = .cmd .ksgen) ∧
    (∀ n : Nat, 1 ≤ n → n ≤ 16 →
      decode (0x00000004 ||| BitVec.ofNat 32 n <<< 4) = .cmd (.whiten (BitVec.ofNat 5 n)) ∧
        decode (0x00000006 ||| BitVec.ofNat 32 n <<< 4) = .cmd (.ctrxor (BitVec.ofNat 5 n)) ∧
        decode (0x00000007 ||| BitVec.ofNat 32 n <<< 4) = .cmd (.crypt (BitVec.ofNat 5 n))) ∧
    (∀ (s : State) (v : Word), s.busy = false → s.err = 0#4 → v ∉ legalWords →
      ((busWrite .cmd v s).err = 1#4 ∧ decode v = .illegal ∨ (busWrite .cmd v s).err = 3#4 ∧ decode v = .badLen) ∧
        (busWrite .cmd v s).pending = s.pending ∧ (busWrite .cmd v s).busy = false)

/-! ### The step (00_scope.md R9, 70_reset_and_hazards.md R174, R175) -/

/-- When the engine has the turn and a command is pending, the step is that command's completion, on the state with
the turn taken off the inputs (log entries 1 and 2). -/
def Obligations.StepRunsThePendingCommand : Prop :=
  ∀ (s : State) (i : Instr), s.pending = some i →
    (s.inputs = [] → step s = exec i s) ∧
      (∀ rest, s.inputs = .engine :: rest → step s = exec i { s with inputs := rest })

/-- A word that decodes to a command, put in front of the engine, is fetched and run by the very next step; the step
runs it on the state of its acceptance (log entry 9). -/
def Obligations.FetchedWordRuns : Prop :=
  ∀ (s : State) (v : Word) (i : Instr), decode v = .cmd i →
    decodeTableWord 32 v.toNat = some i ∧
      step (s.withFetchWord 32 v.toNat) = exec i { s with pending := some i, busy := true, done := false }

/-- A legal command written to an idle core whose checks all pass is accepted by the write's step and completed by the
engine's: two steps end in the command's own completion (R147, R174). -/
def Obligations.CommandWriteThenCompletion : Prop :=
  ∀ (s : State) (i : Instr) (rest : List Input),
    s.inputs = .access (Access.wr .cmd (encode i)) :: .engine :: rest → i.wellFormed = true → s.busy = false →
    s.err = 0#4 → (i.needsKey = true → s.keyWmask = 0b1111#4) → (i.needsPad = true → s.padValid = true) →
    (i.usesCtr = true → s.ctrWrap = false) →
    ∃ t, step s = .next t ∧ t.busy = true ∧ t.done = false ∧ t.pending = some i ∧ t.err = 0#4 ∧
      t.inputs = .engine :: rest ∧ t.responses = .okay :: s.responses ∧
      (t.key, t.keyWmask, t.ctr, t.ctrWrap) = (s.key, s.keyWmask, s.ctr, s.ctrWrap) ∧
      (t.din, t.dout, t.pad, t.padValid) = (s.din, s.dout, s.pad, s.padValid) ∧
      step t = exec i { t with inputs := rest }

/-- With no command pending the engine's turn changes nothing: HTC-CORE executes nothing on its own (R166, R175).
That an idle turn exists is the model's choice (log entry 3). -/
def Obligations.IdleEngineWaits : Prop :=
  ∀ s : State, s.pending = none →
    (s.inputs = [] → step s = .next s) ∧
      (∀ rest, s.inputs = .engine :: rest → step s = .next { s with inputs := rest })

/-! ### The commands at completion: result, flags and frame -/

/-- NOP, CTR_CLR and KEY_CLR complete in every state: NOP writes nothing but BUSY, DONE and PENDING; CTR_CLR clears
CTR and CTR_WRAP; KEY_CLR clears KEY and KEY_WMASK; everything else is unchanged (R130 to R132). -/
def Obligations.ControlCommandsComplete : Prop :=
  ∀ s : State,
    (∃ t, exec .nop s = .next t ∧ s.CompletedFrom t ∧ t.key = s.key ∧ t.keyWmask = s.keyWmask ∧ t.ctr = s.ctr ∧
      t.ctrWrap = s.ctrWrap ∧ t.din = s.din ∧ t.dout = s.dout ∧ t.pad = s.pad ∧ t.padValid = s.padValid) ∧
    (∃ t, exec .ctrClr s = .next t ∧ s.CompletedFrom t ∧ t.ctr = 0#128 ∧ t.ctrWrap = false ∧ t.key = s.key ∧
      t.keyWmask = s.keyWmask ∧ t.din = s.din ∧ t.dout = s.dout ∧ t.pad = s.pad ∧ t.padValid = s.padValid) ∧
    (∃ t, exec .keyClr s = .next t ∧ s.CompletedFrom t ∧ (∀ i : Fin 16, t.key[i] = 0) ∧ t.keyWmask = 0#4 ∧
      t.keyValid = false ∧ t.ctr = s.ctr ∧ t.ctrWrap = s.ctrWrap ∧ t.din = s.din ∧ t.dout = s.dout ∧ t.pad = s.pad ∧
      t.padValid = s.padValid)

/-- MD5 completes in every state: PAD is MD5_16(DIN), PAD_VALID is set, everything else is unchanged (R83). -/
def Obligations.Md5Completes : Prop :=
  ∀ s : State, ∃ t, exec .md5 s = .next t ∧ s.CompletedFrom t ∧ t.pad = md5_16 s.din ∧ t.padValid = true ∧
    t.key = s.key ∧ t.keyWmask = s.keyWmask ∧ t.ctr = s.ctr ∧ t.ctrWrap = s.ctrWrap ∧ t.din = s.din ∧ t.dout = s.dout

/-- After MD5 the host reads from PAD0..PAD3 the final working variables plus the initial ones (R86, R92). -/
def Obligations.Md5PadWordsReadTheDigest : Prop :=
  ∀ s : State, ∃ t, exec .md5 s = .next t ∧
    busRead (.pad 0) t = (md5Steps s.din 64).a + 0x67452301 ∧
    busRead (.pad 1) t = (md5Steps s.din 64).b + 0xEFCDAB89 ∧
    busRead (.pad 2) t = (md5Steps s.din 64).c + 0x98BADCFE ∧
    busRead (.pad 3) t = (md5Steps s.din 64).d + 0x10325476

/-- WHITEN n completes in every state: byte `i` of DOUT is DIN[i] XOR PAD[i] for `i < n` and 0x00 after, the counter
does not move, everything else is unchanged (R101). -/
def Obligations.WhitenCompletes : Prop :=
  ∀ (s : State) (n : BitVec 5), ∃ t, exec (.whiten n) s = .next t ∧ s.CompletedFrom t ∧
    (∀ i : Fin 16, t.dout[i] = if i.val < n.toNat then s.din[i] ^^^ s.pad[i] else 0x00) ∧
    t.key = s.key ∧ t.keyWmask = s.keyWmask ∧ t.ctr = s.ctr ∧ t.ctrWrap = s.ctrWrap ∧ t.din = s.din ∧
    t.pad = s.pad ∧ t.padValid = s.padValid

/-- KSGEN completes in every state: DOUT is AES128(KEY, be128(CTR)), the counter advances, everything else is
unchanged (R120). -/
def Obligations.KsgenCompletes : Prop :=
  ∀ s : State, ∃ t, exec .ksgen s = .next t ∧ s.CompletedFrom t ∧ t.dout = aes128 s.key (be128 s.ctr) ∧
    s.AdvancedFrom t ∧ t.key = s.key ∧ t.keyWmask = s.keyWmask ∧ t.din = s.din ∧ t.pad = s.pad ∧
    t.padValid = s.padValid

/-- CTRXOR n completes in every state: byte `i` of DOUT is DIN[i] XOR ks[i] for `i < n` and 0x00 after, with
ks = AES128(KEY, be128(CTR)); the counter advances by one whatever n is; everything else is unchanged (R121, R122). -/
def Obligations.CtrxorCompletes : Prop :=
  ∀ (s : State) (n : BitVec 5), ∃ t, exec (.ctrxor n) s = .next t ∧ s.CompletedFrom t ∧
    (∀ i : Fin 16,
      t.dout[i] = if i.val < n.toNat then s.din[i] ^^^ (aes128 s.key (be128 s.ctr))[i] else 0x00) ∧
    s.AdvancedFrom t ∧ t.key = s.key ∧ t.keyWmask = s.keyWmask ∧ t.din = s.din ∧ t.pad = s.pad ∧
    t.padValid = s.padValid

/-- CRYPT n completes in every state: byte `i` of DOUT is DIN[i] XOR ks[i] XOR PAD[i] for `i < n` and 0x00 after; the
counter advances by one; everything else is unchanged (R134). -/
def Obligations.CryptCompletes : Prop :=
  ∀ (s : State) (n : BitVec 5), ∃ t, exec (.crypt n) s = .next t ∧ s.CompletedFrom t ∧
    (∀ i : Fin 16,
      t.dout[i] =
        if i.val < n.toNat then s.din[i] ^^^ (aes128 s.key (be128 s.ctr))[i] ^^^ s.pad[i] else 0x00) ∧
    s.AdvancedFrom t ∧ t.key = s.key ∧ t.keyWmask = s.keyWmask ∧ t.din = s.din ∧ t.pad = s.pad ∧
    t.padValid = s.padValid

/-! ### Acceptance and errors (60_exceptions.md) -/

/-- The outcome of a CMD write, check by check in the order BUSY, ERR != 0, ILLEGAL, LEN, KEY, PAD, CTR, each with all
of its effect (R147, R148, R149 and the BUSY row of 20_memory.md R49); a completion checks nothing: it goes on in every
state and leaves ERR. -/
def Obligations.CommandChecksInOrder : Prop :=
  (∀ (i : Instr) (s : State), ∃ t, exec i s = .next t ∧ t.err = s.err) ∧
  ∀ (s : State) (v : Word),
    (s.busy = true → busWrite .cmd v s = { s with err := if s.err = 0#4 then 5#4 else s.err }) ∧
    (s.busy = false → s.err ≠ 0#4 → busWrite .cmd v s = { s with done := false }) ∧
    (s.busy = false → s.err = 0#4 →
      (decode v = .illegal → busWrite .cmd v s = { s with done := false, err := 1#4 }) ∧
      (decode v = .badLen → busWrite .cmd v s = { s with done := false, err := 3#4 }) ∧
      (∀ i, decode v = .cmd i →
        (i.op.toNat ∈ [5, 6, 7] ∧ s.keyWmask ≠ 0b1111#4 → busWrite .cmd v s = { s with done := false, err := 2#4 }) ∧
        (¬(i.op.toNat ∈ [5, 6, 7] ∧ s.keyWmask ≠ 0b1111#4) →
          (i.op.toNat ∈ [4, 7] ∧ s.padValid = false → busWrite .cmd v s = { s with done := false, err := 4#4 }) ∧
          (¬(i.op.toNat ∈ [4, 7] ∧ s.padValid = false) →
            (i.op.toNat ∈ [5, 6, 7] ∧ s.ctrWrap = true → busWrite .cmd v s = { s with done := false, err := 6#4 }) ∧
            (¬(i.op.toNat ∈ [5, 6, 7] ∧ s.ctrWrap = true) →
              busWrite .cmd v s = { s with done := false, pending := some i, busy := true })))))

/-- NOP, CTR_CLR and KEY_CLR are accepted whenever BUSY = 0, ERR = 0, LEN = 0 and RSVD = 0, whatever KEY, PAD and CTR
are (R133). -/
def Obligations.ControlCommandsNeedNothing : Prop :=
  ∀ (s : State) (v : Word), s.busy = false → s.err = 0#4 → v.extractLsb' 4 5 = 0#5 → v.extractLsb' 9 23 = 0#23 →
    (v.extractLsb' 0 4).toNat ≤ 2 →
    ∃ i ∈ [Instr.nop, .ctrClr, .keyClr], i.op = v.extractLsb' 0 4 ∧
      busWrite .cmd v s = { s with done := false, pending := some i, busy := true }

/-- A command word with any RSVD bit set is ERR_ILLEGAL, whatever OP and LEN hold (R70). -/
def Obligations.ReservedBitsAreIllegal : Prop :=
  ∀ (s : State) (v : Word), v.extractLsb' 9 23 ≠ 0#23 →
    decode v = .illegal ∧
      (s.busy = false → s.err = 0#4 → busWrite .cmd v s = { s with done := false, err := 1#4 })

/-- ERR keeps the first error: raising an error while ERR != 0 changes nothing, and a step changes a non-zero ERR only
to 0, by reset or by a STATUS write with bit 31 set (R146, R33, R152). -/
def Obligations.FirstErrorIsSticky : Prop :=
  (∀ (s : State) (c : CmdError),
    (s.err = 0#4 → s.raiseError c = { s with err := c.code }) ∧ (s.err ≠ 0#4 → s.raiseError c = s)) ∧
  (∀ s t : State, s.err ≠ 0#4 → step s = .next t →
    t.err = s.err ∨
      t.err = 0#4 ∧ (s.inputs.head? = some .rst ∨
        ∃ v, v.getLsbD 31 = true ∧ s.inputs.head? = some (.access (Access.wr .status v))))

/-- A command rejected while the engine is idle leaves KEY, KEY_WMASK, CTR, CTR_WRAP, DIN, DOUT, PAD, PAD_VALID, BUSY
and PENDING as they were and clears DONE; an accepted one too, but for BUSY and PENDING (R144, R148). -/
def Obligations.RejectedCommandsArePrecise : Prop :=
  ∀ (s : State) (v : Word), s.busy = false →
    (busWrite .cmd v s).key = s.key ∧ (busWrite .cmd v s).keyWmask = s.keyWmask ∧
    (busWrite .cmd v s).ctr = s.ctr ∧ (busWrite .cmd v s).ctrWrap = s.ctrWrap ∧ (busWrite .cmd v s).din = s.din ∧
    (busWrite .cmd v s).dout = s.dout ∧ (busWrite .cmd v s).pad = s.pad ∧
    (busWrite .cmd v s).padValid = s.padValid ∧ (busWrite .cmd v s).done = false ∧
    ((busWrite .cmd v s).busy = false ∧ (busWrite .cmd v s).pending = s.pending ∧ (busWrite .cmd v s).err ≠ 0#4 ∨
      (busWrite .cmd v s).busy = true ∧ ∃ i, decode v = .cmd i ∧ (busWrite .cmd v s).pending = some i ∧
        (busWrite .cmd v s).err = s.err)

/-! ### The register window (20_memory.md, 10_state.md) -/

/-- Reads have no side effect: a read of a listed register takes its input, answers the register's value and changes
nothing else (R48). The fields inputs and responses are the model's own (log entries 2 and 5). -/
def Obligations.ReadsChangeNoState : Prop :=
  ∀ (s : State) (r : Reg) (rest : List Input), s.inputs = .access (Access.rd r) :: rest →
    step s = .next { s with inputs := rest, responses := .data (busRead r s) :: s.responses }

/-- CMD and KEY0..KEY3 read 0x00000000, and bit 31 of STATUS, ERR_CLR, reads 0 (R50). -/
def Obligations.WriteOnlyLocationsReadZero : Prop :=
  ∀ s : State, busRead .cmd s = 0x00000000 ∧ (∀ k, busRead (.key k) s = 0x00000000) ∧
    (busRead .status s).getLsbD 31 = false

/-- A write to ID, CTRk, DOUTk or PADk is ignored in every state: no state change, no ERR code, an OKAY response, also
while BUSY = 1 (R51). The fields inputs and responses are the model's own (log entries 2 and 5). -/
def Obligations.ReadOnlyWritesAreIgnored : Prop :=
  ∀ (s : State) (r : Reg) (v : Word) (rest : List Input),
    (r = .id ∨ (∃ k, r = .ctr k) ∨ (∃ k, r = .dout k) ∨ ∃ k, r = .pad k) →
    s.inputs = .access (Access.wr r v) :: rest →
    step s = .next { s with inputs := rest, responses := .okay :: s.responses }

/-- A STATUS write with bit 31 set clears ERR, with bit 31 clear it changes nothing; bits 30:0 are ignored, no other
field changes, BUSY does not matter, and ERR_BUSY is not raised (R52). The fields inputs and responses are the model's
own (log entries 2 and 5). -/
def Obligations.StatusWriteClearsErr : Prop :=
  ∀ (s : State) (v : Word) (rest : List Input), s.inputs = .access (Access.wr .status v) :: rest →
    step s = .next
      { s with
        err := if v.getLsbD 31 then 0#4 else s.err
        inputs := rest
        responses := .okay :: s.responses }

/-- While BUSY = 1 a write to CMD, KEYk or DINk is ignored: its only effect is ERR_BUSY if ERR = 0, the pending command
stays; the read-only registers and STATUS behave as when idle (R56). -/
def Obligations.BusyWritesAreIgnored : Prop :=
  ∀ (s : State) (r : Reg) (v : Word), s.busy = true →
    ((r = .cmd ∨ (∃ k, r = .key k) ∨ ∃ k, r = .din k) →
      busWrite r v s = { s with err := if s.err = 0#4 then 5#4 else s.err }) ∧
    ((r = .id ∨ r = .status ∨ (∃ k, r = .ctr k) ∨ (∃ k, r = .dout k) ∨ ∃ k, r = .pad k) →
      ∃ e, busWrite r v s = { s with err := e } ∧ busWrite r v { s with busy := false } = { s with busy := false, err := e })

/-- STATUS reads BUSY, DONE, KEY_VALID, PAD_VALID, CTR_WRAP in bits 0 to 4, ERR in bits 11:8, and 0 in every other bit
(R25). -/
def Obligations.StatusWordBits : Prop :=
  ∀ s : State,
    (busRead .status s).getLsbD 0 = s.busy ∧ (busRead .status s).getLsbD 1 = s.done ∧
    ((busRead .status s).getLsbD 2 = true ↔ s.keyWmask = 0b1111#4) ∧ (busRead .status s).getLsbD 3 = s.padValid ∧
    (busRead .status s).getLsbD 4 = s.ctrWrap ∧ (busRead .status s).extractLsb' 8 4 = s.err ∧
    (∀ j, j = 5 ∨ j = 6 ∨ j = 7 ∨ 12 ≤ j → (busRead .status s).getLsbD j = false)

/-- The packing of 16-byte registers into words, for reads of DIN, DOUT, PAD and the counter bytes and for writes of
DIN and KEY, with the rule's example (R47). -/
def Obligations.WordPacking : Prop :=
  (∀ (X : Block) (k : Fin 4),
    (wordOf X k).toNat =
      X[4 * k.val].toNat + X[4 * k.val + 1].toNat * 2 ^ 8 + X[4 * k.val + 2].toNat * 2 ^ 16 +
        X[4 * k.val + 3].toNat * 2 ^ 24) ∧
  (∀ (s : State) (k : Fin 4),
    busRead (.din k) s = wordOf s.din k ∧ busRead (.dout k) s = wordOf s.dout k ∧
      busRead (.pad k) s = wordOf s.pad k ∧ busRead (.ctr k) s = wordOf (be128 s.ctr) k) ∧
  (∀ (s : State) (k : Fin 4) (v : Word) (j : Nat) (hj : j < 4), s.busy = false →
    (busWrite (.din k) v s).din[4 * k.val + j] = v.extractLsb' (8 * j) 8 ∧
      (busWrite (.key k) v s).key[4 * k.val + j] = v.extractLsb' (8 * j) 8) ∧
  (∀ s : State, s.busy = false →
    (busWrite (.key 0) 0x5069654B s).key[0] = 0x4B ∧ (busWrite (.key 0) 0x5069654B s).key[1] = 0x65 ∧
      (busWrite (.key 0) 0x5069654B s).key[2] = 0x69 ∧ (busWrite (.key 0) 0x5069654B s).key[3] = 0x50)

/-- A DINk write while idle is read back from DINk, leaves the other words of DIN, and changes nothing else (R29,
R49). -/
def Obligations.DinWriteReadsBack : Prop :=
  ∀ (s : State) (k : Fin 4) (v : Word), s.busy = false →
    busRead (.din k) (busWrite (.din k) v s) = v ∧
      (∀ l, l ≠ k → busRead (.din l) (busWrite (.din k) v s) = busRead (.din l) s) ∧
      busWrite (.din k) v s = { s with din := (busWrite (.din k) v s).din }

/-- A KEYk write while idle sets the four bytes of KEY and bit k of KEY_WMASK, leaves the other bytes and bits, and
changes nothing else (R26, R49). -/
def Obligations.KeyWriteSetsWordAndMask : Prop :=
  ∀ (s : State) (k : Fin 4) (v : Word), s.busy = false →
    (∀ i : Fin 16, (busWrite (.key k) v s).key[i] =
      if i.val / 4 = k.val then v.extractLsb' (8 * (i.val % 4)) 8 else s.key[i]) ∧
    (∀ l : Fin 4, (busWrite (.key k) v s).keyWmask.getLsbD l.val = (decide (l = k) || s.keyWmask.getLsbD l.val)) ∧
    busWrite (.key k) v s =
      { s with key := (busWrite (.key k) v s).key, keyWmask := (busWrite (.key k) v s).keyWmask }

/-- After any KEYk writes on an idle core with KEY_WMASK = 0, KEY_VALID is 1 exactly when each of the four words has
been written; a later KEYk write changes that word of KEY and leaves KEY_VALID = 1 (R40). -/
def Obligations.KeyValidNeedsAllFourWords : Prop :=
  (∀ (s : State) (ws : List (Fin 4 × Word)), s.busy = false → s.keyWmask = 0#4 →
    ((ws.foldl (fun t w => busWrite (.key w.1) w.2 t) s).keyValid = true ↔ ∀ k : Fin 4, ∃ v, (k, v) ∈ ws)) ∧
  (∀ (s : State) (k : Fin 4) (v : Word), s.busy = false → s.keyValid = true →
    (busWrite (.key k) v s).keyValid = true ∧ wordOf (busWrite (.key k) v s).key k = v ∧
      ∀ l, l ≠ k → wordOf (busWrite (.key k) v s).key l = wordOf s.key l)

/-- `be128` and `int_be` are inverse to each other (00_scope.md R12), so CTR0..CTR3 show the whole counter (R27). -/
def Obligations.CounterBytesAreBigEndian : Prop :=
  (∀ n : Counter, intBe (be128 n) = n) ∧ (∀ X : Block, be128 (intBe X) = X) ∧
    (∀ (s : State), intBe (blockOfWords fun k => busRead (.ctr k) s) = s.ctr)

/-- A bus error (R54): an access that the window does not accept is answered with the error response, and no state
changes, not even ERR; the host's step, one access and its answer, is then the fault `busError` and gives no value. An
access that the window accepts has another answer, and the host's step goes on. The window does not accept an access
of another width than 32 bits, of an offset that is no multiple of 4, or of an offset that is 0x0C or at least 0x60.
The fields inputs and responses are the model's own (log entries 2 and 5); that the fault is the host's and the core
goes on is the model's reading of R54, DEDUCED (log entry 4). -/
def Obligations.BusErrorExactly : Prop :=
  (∀ (s : State) (a : Access) (rest : List Input), s.inputs = .access a :: rest →
    (a.listed = false → step s = .next { s with inputs := rest, responses := .error :: s.responses }) ∧
    (a.listed = true → ∃ t r, step s = .next t ∧ t.responses = r :: s.responses ∧ r ≠ .error)) ∧
  (∀ (s : State) (a : Access),
    (a.listed = false → hostAccess a s = .error (.fault (.busError a) { s with responses := .error :: s.responses })) ∧
    (a.listed = true → ∃ r t, hostAccess a s = .ok (r, t) ∧ r ≠ .error)) ∧
  (∀ a : Access, a.listed = false ↔ a.width ≠ .bits32 ∨ a.off % 4 ≠ 0 ∨ a.off = 0x0C ∨ 0x60 ≤ a.off)

/-- No run stops: from every state, whatever the outside world does, bus errors included, every number of steps ends in
a next state (R142: no error of either kind stops the engine; R153). That a bus error is no fault of the core's step but
of the host's is the model's reading, DEDUCED, of R54's "A model makes the host step a fault" (log entry 4). -/
def Obligations.RunsNeverStop : Prop :=
  ∀ (s : State) (k : Nat), SafeRun k s

/-! ### Reset (10_state.md R38, 70_reset_and_hazards.md R164, R165) -/

/-- The reset value of every state item, and STATUS reads 0 (R38). -/
def Obligations.ResetValues : Prop :=
  (∀ i : Fin 16, State.reset.key[i] = 0 ∧ State.reset.din[i] = 0 ∧ State.reset.dout[i] = 0 ∧ State.reset.pad[i] = 0) ∧
    State.reset.keyWmask = 0b0000#4 ∧ State.reset.keyValid = false ∧ State.reset.ctr = 0#128 ∧
    State.reset.ctrWrap = false ∧ State.reset.padValid = false ∧ State.reset.busy = false ∧
    State.reset.done = false ∧ State.reset.err = 0#4 ∧ State.reset.pending = none ∧
    busRead .status State.reset = 0x00000000

/-- RST takes every item to its reset value in one step from every state; a pending command is abandoned and none of
its results is written (R164, R165). That the inputs to come and the answers given so far stay is the model's choice
(log entries 2 and 5). -/
def Obligations.ResetAbandonsThePendingCommand : Prop :=
  ∀ (s : State) (rest : List Input), s.inputs = .rst :: rest →
    step s = .next { State.reset with inputs := rest, responses := s.responses }

/-! ### Invariants (10_state.md R41) -/

/-- The invariants of R41 hold at reset. -/
def Obligations.ResetMeetsTheInvariant : Prop := State.reset.Inv ∧ State.reset.PendingReady

/-- Every step keeps the invariants of R41: BUSY exactly when a command is pending, ERR in 0 to 6, PAD zero until
PAD_VALID, DONE only when idle. -/
def Obligations.StepKeepsTheInvariant : Prop :=
  ∀ s t : State, s.Inv → step s = .next t → t.Inv

/-- Every step keeps a pending command legal and its state checks passed: what R147 checked at acceptance still holds
at completion (R153). -/
def Obligations.StepKeepsPendingReady : Prop :=
  ∀ s t : State, s.Inv → s.PendingReady → step s = .next t → t.PendingReady

/-- Once the counter has wrapped it stays at 0 with CTR_WRAP = 1 until CTR_CLR completes or reset: no counter value is
used twice (R116, R28). -/
def Obligations.WrappedCounterIsLocked : Prop :=
  ∀ s t : State, s.Inv → s.PendingReady → s.ctrWrap = true → step s = .next t →
    (t.ctrWrap = true ∧ t.ctr = s.ctr) ∨ s.inputs.head? = some .rst ∨ (s.EngineNext ∧ s.pending = some .ctrClr)

/-- CTR_WRAP = 1 only at CTR = 0 is kept by every step (R116). -/
def Obligations.StepKeepsWrapAtZero : Prop :=
  ∀ s t : State, s.Inv → s.PendingReady → (s.ctrWrap = true → s.ctr = 0#128) → step s = .next t →
    (t.ctrWrap = true → t.ctr = 0#128)

/-! ### Whole-machine rules -/

/-- Only reset, CTR_CLR and a counter-using command change CTR or CTR_WRAP (R27, R28, R36). -/
def Obligations.CounterChangesOnlyBy : Prop :=
  ∀ s t : State, step s = .next t → t.ctr ≠ s.ctr ∨ t.ctrWrap ≠ s.ctrWrap →
    s.inputs.head? = some .rst ∨
      (s.EngineNext ∧ ∃ i, s.pending = some i ∧ (i = .ctrClr ∨ i = .ksgen ∨ (∃ n, i = .ctrxor n) ∨ ∃ n, i = .crypt n))

/-- Only KEYk writes made while idle, KEY_CLR and reset change KEY or KEY_WMASK (R26). -/
def Obligations.KeyChangesOnlyBy : Prop :=
  ∀ s t : State, step s = .next t → t.key ≠ s.key ∨ t.keyWmask ≠ s.keyWmask →
    s.inputs.head? = some .rst ∨ (s.EngineNext ∧ s.pending = some .keyClr) ∨
      (s.busy = false ∧ ∃ k v, s.inputs.head? = some (.access (Access.wr (.key k) v)))

/-- Only the completion of MD5 and reset change PAD or PAD_VALID, and PAD_VALID is cleared only by reset (R30, R99). -/
def Obligations.PadChangesOnlyBy : Prop :=
  ∀ s t : State, step s = .next t →
    (t.pad ≠ s.pad ∨ t.padValid ≠ s.padValid →
      s.inputs.head? = some .rst ∨ (s.EngineNext ∧ s.pending = some .md5)) ∧
    (s.padValid = true → t.padValid = false → s.inputs.head? = some .rst)

/-- Only DINk writes made while idle and reset change DIN: no command writes DIN (R29). -/
def Obligations.DinChangesOnlyBy : Prop :=
  ∀ s t : State, step s = .next t → t.din ≠ s.din →
    s.inputs.head? = some .rst ∨
      (s.busy = false ∧ ∃ k v, s.inputs.head? = some (.access (Access.wr (.din k) v)))

/-- Only the completion of WHITEN, KSGEN, CTRXOR or CRYPT and reset change DOUT (R31). -/
def Obligations.DoutChangesOnlyBy : Prop :=
  ∀ s t : State, step s = .next t → t.dout ≠ s.dout →
    s.inputs.head? = some .rst ∨
      (s.EngineNext ∧ ∃ i, s.pending = some i ∧ ((∃ n, i = .whiten n) ∨ i = .ksgen ∨ (∃ n, i = .ctrxor n) ∨ ∃ n, i = .crypt n))

/-- BUSY goes up only when a CMD write is accepted and down only at completion or reset; no other transition of the
engine exists (R174). -/
def Obligations.LifecycleTransitions : Prop :=
  ∀ s t : State, s.Inv → step s = .next t →
    (s.busy = false → t.busy = true →
      ∃ v i, s.inputs.head? = some (.access (Access.wr .cmd v)) ∧ decode v = .cmd i ∧ t.pending = some i) ∧
    (s.busy = true → t.busy = false → s.inputs.head? = some .rst ∨ s.EngineNext) ∧
    (s.busy = true → t.busy = true → t.pending = s.pending)

/-- KEY cannot be observed except through a key-using command: from two states equal in everything but KEY, a step that
completes no such command leads to states equal in everything but KEY, with the same answers on the bus (R26, R43,
R140). That the core goes on after a bus error is the model's reading, DEDUCED (log entry 4). -/
def Obligations.KeyIsNotObservable : Prop :=
  ∀ s t : State, s.EqualButKey t → (∀ i, s.pending = some i → i.needsKey = false) →
    ∃ u v, step s = .next u ∧ step t = .next v ∧ u.EqualButKey v ∧ u.responses = v.responses

/-- Computing at acceptance or at completion is the same: whatever accesses the host makes while a command is
pending, bus errors included, the command, its operands and the registers it will write are untouched, so reads show the values from before
the command, and its completion gives the same results (R61, R178). That the core goes on after a bus error is
the model's reading, DEDUCED (log entry 4). -/
def Obligations.SnapshotEquivalence : Prop :=
  ∀ (s : State) (i : Instr) (as : List Access), s.Inv → s.pending = some i →
    ∃ t, runAccesses as s = .next t ∧ t.pending = some i ∧ t.busy = true ∧
      (t.key, t.keyWmask, t.ctr, t.ctrWrap) = (s.key, s.keyWmask, s.ctr, s.ctrWrap) ∧
      (t.din, t.dout, t.pad, t.padValid) = (s.din, s.dout, s.pad, s.padValid) ∧
      ∃ u v, exec i s = .next u ∧ exec i t = .next v ∧
        (v.key, v.keyWmask, v.ctr, v.ctrWrap) = (u.key, u.keyWmask, u.ctr, u.ctrWrap) ∧
        (v.din, v.dout, v.pad, v.padValid) = (u.din, u.dout, u.pad, u.padValid) ∧
        (v.busy, v.done, v.pending) = (u.busy, u.done, u.pending)

/-- A pending command completes: however long the host goes on with accesses, bus errors included, at the latest when it has no
more to make, the engine takes its step (R180). That the accesses to come are a finite list is the model's choice (log
entry 2); that the core goes on after a bus error is its reading, DEDUCED (log entry 4). -/
def Obligations.PendingCommandCompletes : Prop :=
  ∀ s : State, s.Inv → s.pending ≠ none → Input.rst ∉ s.inputs →
    ∃ k ≤ s.inputs.length + 1, ∃ t, Host.Core.run core k s = .next t ∧ t.pending = none ∧ t.busy = false ∧ t.done = true

/-! ### The document's algebra -/

/-- WHITEN n twice with the same PAD gives the first n bytes back, zeros after them (R102). -/
def Obligations.WhitenIsAnInvolution : Prop :=
  ∀ (s t : State) (n : BitVec 5), 1 ≤ n.toNat → n.toNat ≤ 16 → exec (.whiten n) s = .next t →
    ∃ u, exec (.whiten n) { t with din := t.dout } = .next u ∧
      ∀ i : Fin 16, u.dout[i] = if i.val < n.toNat then s.din[i] else 0x00

/-- CTRXOR n with DIN = 0 writes the first n bytes of the DOUT that KSGEN writes, zeros after them, and both leave CTR
advanced by one (R126). -/
def Obligations.KsgenAndCtrxorAgree : Prop :=
  ∀ (s : State) (n : BitVec 5), s.din = zeroBlock →
    ∃ t u, exec .ksgen s = .next t ∧ exec (.ctrxor n) s = .next u ∧
      (∀ i : Fin 16, u.dout[i] = if i.val < n.toNat then t.dout[i] else 0x00) ∧ s.AdvancedFrom t ∧ s.AdvancedFrom u

/-- CRYPT n equals CTRXOR n, DOUT copied to DIN, WHITEN n: the same DOUT, CTR advanced by one by both; they differ only
in DIN, which CRYPT leaves and the two-command sequence overwrites with the intermediate block (R135). -/
def Obligations.CryptIsCtrxorThenWhiten : Prop :=
  ∀ (s : State) (n : BitVec 5),
    ∃ t u w, exec (.crypt n) s = .next t ∧ exec (.ctrxor n) s = .next u ∧
      exec (.whiten n) { u with din := u.dout } = .next w ∧ w.dout = t.dout ∧ s.AdvancedFrom t ∧ s.AdvancedFrom w ∧
      t.din = s.din ∧ w.din = u.dout ∧ { w with din := s.din } = t

/-- CTRXOR n, and CRYPT n, applied to its own output with the same KEY, PAD and starting CTR returns the first n input
bytes: encryption and decryption are one command (R123, R136). -/
def Obligations.StreamCommandsAreTheirOwnInverse : Prop :=
  ∀ (s t : State) (n : BitVec 5) (i : Instr), i = .ctrxor n ∨ i = .crypt n → exec i s = .next t →
    ∃ u, exec i { s with din := t.dout } = .next u ∧
      ∀ j : Fin 16, u.dout[j] = if j.val < n.toNat then s.din[j] else 0x00

/-- No integrity: flipping bit j of DIN[i], i < LEN, flips bit j of DOUT[i] and no other bit, for WHITEN, CTRXOR and
CRYPT (R105). -/
def Obligations.BitFlipsPropagate : Prop :=
  ∀ (s : State) (n : BitVec 5) (c : Instr) (i : Fin 16) (j : Nat),
    c = .whiten n ∨ c = .ctrxor n ∨ c = .crypt n → i.val < n.toNat → j < 8 →
    ∃ t u, exec c s = .next t ∧ exec c { s with din := s.din.set i (s.din[i] ^^^ 1#8 <<< j) } = .next u ∧
      ∀ (k : Fin 16) (m : Nat), m < 8 →
        u.dout[k].getLsbD m = if k = i ∧ m = j then !t.dout[k].getLsbD m else t.dout[k].getLsbD m

/-! ### The host's side (30_encoding.md, 70_reset_and_hazards.md) -/

/-- A whole message: from an idle core with a valid key and no error, the start of a message and CRYPT 16 per block give
C_j = P_j XOR KS(j) XOR MD5(be128(ms)) for every block, whatever the waits, and leave the counter at the number of
blocks (R138, R119, R170). The waits are `hostWait`, the model's choice (log entry 14). -/
def Obligations.MessageIsPlainXorKeystreamXorPad : Prop :=
  ∀ (s : State) (ms : Counter) (polls : Nat → Nat) (P : List Block),
    s.pending = none → s.busy = false → s.err = 0#4 → s.keyValid = true → P.length < 2 ^ 128 →
    ∃ u, startMessage ms polls s = .ok u ∧
      ∃ t, cryptBlocks polls 0 (P.map fun X => (16#5, X)) u =
          .ok (P.mapIdx fun j X => xorBlock (xorBlock X (keystream s.key (BitVec.ofNat 128 j))) (md5_16 (be128 ms)), t) ∧
        t.ctr.toNat = P.length ∧ t.key = s.key ∧ t.err = 0#4 ∧ t.busy = false ∧ t.done = true

/-- Round trip of the host procedures: a message of at most 4096 bytes that does not end in 0x00, encrypted and then
decrypted with the same timestamp on one core with a valid key, comes back (95_test_vectors.md T1; R170 to R173).
The waits are `hostWait`, the model's choice (log entry 14), and decryption checks STATUS after each block, which R171
does not list (log entry 23). -/
def Obligations.EncryptDecryptRoundTrip : Prop :=
  ∀ (s t : State) (params : HostParams) (T H : List Char) (M : List Byte) (polls polls' : Nat → Nat),
    s.pending = none → s.busy = false → s.err = 0#4 → s.keyValid = true → M.length ≤ 4096 → M.getLast? ≠ some 0 →
    encryptMessage params T M polls s = .ok (H, t) →
    ∃ u, decryptMessage params T H polls' t = .ok (M, u)

/-- The disassembler and R72 are inverse on the legal words: the printed text of a command's word is read back as that
one command (R81, R77). How the transcriber reads a text (tokens, lines, operands) is the model's choice (log entry
13). -/
def Obligations.DisassemblyReadsBack : Prop :=
  ∀ i : Instr, i.wellFormed = true →
    transcribe (disassemble (encode i)) = .ok [(1, .command i)] ∧
      assemble [(1, .command i)] = [.wr .cmd (encode i)]

/-- TargetLen (R168): 128 below 128, otherwise the next multiple of 16, which is n itself where n is one. -/
def Obligations.TargetLenRule : Prop :=
  ∀ n : Nat, (n < 128 → targetLen n = 128) ∧
    (128 ≤ n → 16 ∣ targetLen n ∧ n ≤ targetLen n ∧ targetLen n < n + 16) ∧
    (∀ M : List Byte, M.length = n → (padMessage M).length = targetLen n ∧ M <+: padMessage M ∧
      ∀ b ∈ (padMessage M).drop n, b = 0)

/-- Strip removes all trailing 0x00 bytes and nothing else, so padding is undone exactly when the message does not end
in 0x00 (R172). -/
def Obligations.StripRule : Prop :=
  ∀ (M : List Byte) (k : Nat),
    strip (M ++ List.replicate k 0) = strip M ∧ (strip M).getLast? ≠ some 0 ∧
      (∃ j, M = strip M ++ List.replicate j 0) ∧ (strip (padMessage M) = M ↔ M.getLast? ≠ some 0)

/-- Hex writes lower-case digits that Unhex reads back, for every text of whole blocks; Unhex refuses an odd length
with LengthError (R173). That the odd length is checked first is the model's choice (log entry 16). -/
def Obligations.HexReadsBack : Prop :=
  (∀ C : List Byte, C.length % 16 = 0 → unhex (hexOf C) = .ok C) ∧
    (∀ C : List Byte, ∀ c ∈ hexOf C, c ∈ "0123456789abcdef".toList) ∧
    (∀ H : List Char, H.length % 2 = 1 → unhex H = .error .lengthError)
end

