-- ==== Sys2Proof/Laws/Bytes.lean ====
section
/-! SUPPORT. The small lemmas of byte strings, words and the counter: every block function read byte by byte, and the
word packing of 20_memory.md R47 taken apart. -/

namespace Sys2Proof.Machine

@[simp] theorem getElem_zeroBlock (i : Nat) (h : i < 16) : zeroBlock[i] = 0 := by simp [zeroBlock]

@[simp] theorem getElem_xorBlock (a b : Block) (i : Nat) (h : i < 16) : (xorBlock a b)[i] = a[i] ^^^ b[i] := by
  simp [xorBlock]

@[simp] theorem getElem_firstBytes (len : BitVec 5) (X : Block) (i : Nat) (h : i < 16) :
    (firstBytes len X)[i] = if i < len.toNat then X[i] else 0x00 := by
  simp [firstBytes]

@[simp] theorem getElem_setWord (X : Block) (k : Fin 4) (v : Word) (i : Nat) (h : i < 16) :
    (setWord X k v)[i] = if i / 4 = k.val then wordByte v (i % 4) else X[i] := by
  simp [setWord]

@[simp] theorem getElem_blockOfWords (w : Fin 4 → Word) (i : Nat) (h : i < 16) :
    (blockOfWords w)[i] = wordByte (w ⟨i / 4, by omega⟩) (i % 4) := by
  simp [blockOfWords]

@[simp] theorem getElem_be128 (n : Counter) (i : Nat) (h : i < 16) :
    (be128 n)[i] = n.extractLsb' (8 * (15 - i)) 8 := by
  simp [be128]

/-- Two blocks with the same bytes are equal. -/
theorem block_ext {X Y : Block} (h : ∀ i (hi : i < 16), X[i] = Y[i]) : X = Y := Vector.ext h

/-- The bits of `le32`: byte `j` at bits `8j+7 : 8j` (00_scope.md R12). -/
theorem getLsbD_le32 (a b c d : Byte) (i : Nat) :
    (le32 a b c d).getLsbD i =
      if i < 8 then a.getLsbD i else if i < 16 then b.getLsbD (i - 8)
      else if i < 24 then c.getLsbD (i - 16) else d.getLsbD (i - 24) := by
  have out (x : Byte) (j : Nat) (h : 8 ≤ j) : x.getLsbD j = false := BitVec.getLsbD_of_ge x j h
  simp only [le32, BitVec.getLsbD_or, BitVec.getLsbD_shiftLeft, BitVec.getLsbD_setWidth]
  by_cases h8 : i < 8
  · simp [h8, show i < 16 by omega, show i < 24 by omega, show i < 32 by omega]
  by_cases h16 : i < 16
  · simp [h8, h16, show i < 24 by omega, show i < 32 by omega, show i - 8 < 32 by omega, out a i (by omega)]
  by_cases h24 : i < 24
  · simp [h8, h16, h24, show i < 32 by omega, show i - 16 < 32 by omega, out a i (by omega), out b (i - 8) (by omega)]
  by_cases h32 : i < 32
  · simp [h8, h16, h24, h32, show i - 24 < 32 by omega, out a i (by omega), out b (i - 8) (by omega), out c (i - 16) (by omega)]
  · simp [h8, h16, h24, h32, out d (i - 24) (by omega)]

/-- `le32^-1` takes `le32` apart. -/
theorem wordByte_le32 (a b c d : Byte) (j : Nat) (hj : j < 4) :
    wordByte (le32 a b c d) j = #v[a, b, c, d][j] := by
  apply BitVec.eq_of_getLsbD_eq
  intro i hi
  match j, hj with
  | 0, _ => simp [wordByte, getLsbD_le32, hi]
  | 1, _ => simp [wordByte, getLsbD_le32, hi, show 8 + i < 16 by omega]
  | 2, _ => simp [wordByte, getLsbD_le32, hi, show ¬ 16 + i < 8 by omega, show 16 + i < 24 by omega]
  | 3, _ => simp [wordByte, getLsbD_le32, hi, show ¬ 24 + i < 8 by omega, show ¬ 24 + i < 16 by omega]

/-- A word is made of its four bytes. -/
theorem le32_wordByte (v : Word) : le32 (wordByte v 0) (wordByte v 1) (wordByte v 2) (wordByte v 3) = v := by
  apply BitVec.eq_of_getLsbD_eq
  intro i hi
  rw [getLsbD_le32]
  split
  · simp [wordByte, *]
  split
  · simp [wordByte, show i - 8 < 8 by omega, show 8 + (i - 8) = i by omega]
  split
  · simp [wordByte, show i - 16 < 8 by omega, show 16 + (i - 16) = i by omega]
  · simp [wordByte, show i - 24 < 8 by omega, show 24 + (i - 24) = i by omega]
/-- Byte `j` of word `k` is byte `4k + j` of the block (R47). -/
theorem wordByte_wordOf (X : Block) (k : Fin 4) (j : Nat) (hj : j < 4) : wordByte (wordOf X k) j = X[4 * k.val + j] := by
  rw [wordOf, wordByte_le32 _ _ _ _ j hj]
  match j, hj with
  | 0, _ => rfl
  | 1, _ => rfl
  | 2, _ => rfl
  | 3, _ => rfl

/-- The words of a block give the block back (R47). -/
theorem blockOfWords_wordOf (X : Block) : blockOfWords (wordOf X) = X := by
  apply block_ext
  intro i hi
  rw [getElem_blockOfWords, wordByte_wordOf _ _ _ (by omega)]
  congr 1
  simp only
  omega

end Sys2Proof.Machine
end

