-- ==== Sys2Proof/Laws/Host.lean ====
section
/-! SUPPORT. One lemma for each thing the host does to the core: an input, an access, a read, a write, four reads. -/

namespace Sys2Proof.Machine

/-- What an input does, the host's way, is what it does when it is next. -/
theorem feed_eq {x : Input} {s t : State} (h : takeInput x s = .next t) : feed x s = t := by
  have hs : step { s with inputs := x :: s.inputs } = .next t := (step_input rfl).trans h
  unfold feed
  rw [hs]

theorem feed_access (a : Access) (s : State) : feed (.access a) s = busAccess a s := feed_eq rfl

theorem feed_rst (s : State) : feed .rst s = s.takeReset := feed_eq rfl

theorem feed_engine_idle {s : State} (h : s.pending = none) : feed .engine s = s :=
  feed_eq (by simp only [takeInput, engineStep, h])

theorem feed_engine_busy {s t : State} {i : Instr} (h : s.pending = some i) (he : exec i s = .next t) :
    feed .engine s = t :=
  feed_eq (by simp only [takeInput, engineStep, h, he])

/-- The host reads a register: the value, and the core with its answer. -/
theorem hostRead_eq (r : Reg) (s : State) : hostRead r s = .ok (busRead r s, s.respond (.data (busRead r s))) := by
  simp [hostRead, hostAccess, feed_access, busAccess_rd, State.respond]

/-- The host writes a register: the core after the write, with its answer. -/
theorem hostWrite_eq (r : Reg) (v : Word) (s : State) : hostWrite r v s = .ok ((busWrite r v s).respond .okay) := by
  simp [hostWrite, hostAccess, feed_access, busAccess_wr, State.respond]

/-- The words of a block give the block back (30_encoding.md R79). -/
theorem blockOfReads_wordOf (X : Block) : blockOfReads (wordOf X 0) (wordOf X 1) (wordOf X 2) (wordOf X 3) = X := by
  have h : (fun k : Fin 4 => #v[wordOf X 0, wordOf X 1, wordOf X 2, wordOf X 3][k]) = wordOf X := by
    funext k
    match k with
    | 0 => rfl
    | 1 => rfl
    | 2 => rfl
    | 3 => rfl
  rw [blockOfReads, h, blockOfWords_wordOf]

/-- A variable that four reads of a block have filled holds the block. -/
theorem blockVar_eq {x : String} {vars : List (String × Word)} {X : Block}
    (h : ∀ k : Fin 4, lookupVar (wordVar x k) vars = some (wordOf X k)) : blockVar x vars = some X := by
  simp only [blockVar, h 0, h 1, h 2, h 3, blockOfReads_wordOf]

end Sys2Proof.Machine
end

