-- ==== Sys2Proof/Laws/PerInstr.lean ====
section
/-! SUPPORT. A family of statements made per instruction: the fields of the encoded word (30_encoding.md R67). -/

namespace Sys2Proof.Laws.EncodingFields

/-- The encoded word holds OP in bits 3:0, LEN in bits 8:4, zero in RSVD, and is one of the words of the command's
row of the opcode table. -/
def Statement (i : Instr) : Prop :=
  opField (encode i) = i.op ∧ lenField (encode i) = i.len ∧ rsvdField (encode i) = 0 ∧
    ∃ r ∈ opcodeRows, r.mnemonic = i.mnemonic ∧ r.covers (encode i) = true

theorem nop : Statement .nop := by
  refine ⟨by decide, by decide, by decide, opcodeRows[0], by decide, by decide, by decide⟩

theorem ctrClr : Statement .ctrClr := by
  refine ⟨by decide, by decide, by decide, opcodeRows[1], by decide, by decide, by decide⟩

theorem keyClr : Statement .keyClr := by
  refine ⟨by decide, by decide, by decide, opcodeRows[2], by decide, by decide, by decide⟩

theorem md5 : Statement .md5 := by
  refine ⟨by decide, by decide, by decide, opcodeRows[3], by decide, by decide, by decide⟩

theorem whiten (len : BitVec 5) : Statement (.whiten len) := by
  revert len
  unfold Statement
  decide

theorem ksgen : Statement .ksgen := by
  refine ⟨by decide, by decide, by decide, opcodeRows[5], by decide, by decide, by decide⟩

theorem ctrxor (len : BitVec 5) : Statement (.ctrxor len) := by
  revert len
  unfold Statement
  decide

theorem crypt (len : BitVec 5) : Statement (.crypt len) := by
  revert len
  unfold Statement
  decide

end Sys2Proof.Laws.EncodingFields
end

