-- ==== Sys2Proof/Tests/Slice0.lean ====
section
/-! SUPPORT. Tests of single steps on vectors of spec/95_test_vectors.md and of the rules' own examples, the smoke test
of WellFormed, and one state for every statement with hypotheses that meets them all. -/

open Sys2Proof Sys2Proof.Machine

namespace Sys2Proof.Tests

/-! ### Start states (95_test_vectors.md section 2) -/

/-- The state "K": KEYDOC is loaded. -/
def stK : State := { State.reset with key := be128 0x4b656950796241726173000000000000, keyWmask := 0b1111#4 }

/-- The state "KP": the pad PADDOC is there too. -/
def stKP : State :=
  { stK with
    din := be128 0x0000000000000000000001957f763466
    pad := be128 0x912fcce03b6a3509056fa5e2e2516b4c
    padValid := true
    done := true }

/-- "Capybara friends". -/
def capybara : Block := be128 0x436170796261726120667269656e6473

/-- `i` is accepted and pending. -/
def pend (i : Instr) (s : State) : State := s.accept i

/-- The outside world does `xs` next. -/
def facing (xs : List Input) (s : State) : State := { s with inputs := xs }

/-- The state a step goes on in. -/
def nextOf : Host.Outcome State Fault Refusal → Option State
  | .next t => some t
  | .fault _ => none
  | .refused _ => none

/-- The completion of a command. -/
def complete (i : Instr) (s : State) : State := ((nextOf (exec i (pend i s))).getD s)

/-- The step of one host access. -/
def act (a : Access) (s : State) : State := ((nextOf (step (facing [.access a] s))).getD s)

/-- The step of one write. -/
def wr (r : Reg) (v : Word) (s : State) : State := act (Access.wr r v) s

/-- What a host reads. -/
def rd (r : Reg) (s : State) : Option Response := (act (Access.rd r) s).responses.head?

/-- STATUS. -/
def status (s : State) : Word := busRead .status s

/-! ### Decoding: words written out from 30_encoding.md R67, RSVD then LEN then OP -/

theorem test_decode_nop : decode 0b00000000000000000000000000000000#32 = .cmd .nop := by decide
theorem test_decode_ctrClr : decode 0b00000000000000000000000000000001#32 = .cmd .ctrClr := by decide
theorem test_decode_keyClr : decode 0b00000000000000000000000000000010#32 = .cmd .keyClr := by decide
theorem test_decode_md5 : decode 0b00000000000000000000000000000011#32 = .cmd .md5 := by decide
theorem test_decode_whiten : decode 0b00000000000000000000000001010100#32 = .cmd (.whiten 5) := by decide
theorem test_decode_ksgen : decode 0b00000000000000000000000000000101#32 = .cmd .ksgen := by decide
theorem test_decode_ctrxor : decode 0b00000000000000000000000000010110#32 = .cmd (.ctrxor 1) := by decide
theorem test_decode_crypt : decode 0b00000000000000000000000100000111#32 = .cmd (.crypt 16) := by decide

/-- VE13 to VE21. -/
theorem test_decode_illegal :
    ([0x00000008, 0x0000000F, 0x0000001F, 0x00000010, 0x00000013, 0x00000105, 0x00000200, 0x80000107, 0x00000207] :
      List Word).all (fun v => decode v == .illegal) = true := by decide

/-- VE22 to VE26. -/
theorem test_decode_badLen :
    ([0x00000004, 0x00000006, 0x00000007, 0x00000117, 0x000001F6] : List Word).all (fun v => decode v == .badLen) =
      true := by decide

/-- No word belongs to two rows of the opcode table. -/
theorem test_rows_disjoint :
    opcodeRows.Pairwise (fun a b => a.value &&& (a.mask &&& b.mask) ≠ b.value &&& (a.mask &&& b.mask)) := by decide

/-- The row's bits as the host numbers them. -/
theorem test_decodeTableWord :
    decodeTableWord 32 0x00000054 = some (.whiten 5) ∧ decodeTableWord 16 0xABCD0005 = some .ksgen ∧
      decodeTableWord 32 0x00000004 = none := by decide

/-! ### WellFormed: the one check, LEN in 1..16 (30_encoding.md R69) -/

theorem test_wf_whiten : (Instr.whiten 0).wellFormed = false ∧ (Instr.whiten 17).wellFormed = false := by decide
theorem test_wf_ctrxor : (Instr.ctrxor 0).wellFormed = false ∧ (Instr.ctrxor 31).wellFormed = false := by decide
theorem test_wf_crypt : (Instr.crypt 0).wellFormed = false ∧ (Instr.crypt 17).wellFormed = false := by decide
theorem test_wf_bounds : (Instr.whiten 1).wellFormed = true ∧ (Instr.crypt 16).wellFormed = true := by decide

/-! ### AES-128 and MD5 (43_aes_ctr.md R112, R114; 41_md5_pad.md R96) -/

/-- The first and the last word of R112's example. -/
theorem test_key_expansion :
    (keyExpansion (be128 0x2b7e151628aed2a6abf7158809cf4f3c))[4]? = some #v[0xa0, 0xfa, 0xfe, 0x17] ∧
      (keyExpansion (be128 0x2b7e151628aed2a6abf7158809cf4f3c))[43]? = some #v[0xb6, 0x63, 0x0c, 0xa6] := by
  decide +kernel

/-- VA1, FIPS-197 C.1. -/
theorem test_aes_fips_c1 :
    aes128 (be128 0x000102030405060708090a0b0c0d0e0f) (be128 0x00112233445566778899aabbccddeeff) =
      be128 0x69c4e0d86a7b0430d8cdb78070b4c55a := by decide +kernel

/-- VM1, the pad of the canonical timestamp. -/
theorem test_md5_vm1 :
    md5_16 (be128 0x0000000000000000000001957f763466) = be128 0x912fcce03b6a3509056fa5e2e2516b4c := by decide +kernel

/-! ### The commands -/

/-- VC1. -/
theorem test_nop : status (complete .nop State.reset) = 0x00000002 := by decide

/-- VC2, with CTR = 3 and CTR_WRAP = 1 before. -/
theorem test_ctrClr :
    (complete .ctrClr { stKP with ctr := 3, ctrWrap := true }).ctr = 0 ∧
      status (complete .ctrClr { stKP with ctr := 3, ctrWrap := true }) = 0x0000000E := by decide

/-- VC3. -/
theorem test_keyClr : status (complete .keyClr stKP) = 0x0000000A ∧ (complete .keyClr stKP).key = zeroBlock := by decide

/-- VC3: the rejection after it. -/
theorem test_keyClr_then_ksgen : status (wr .cmd 0x00000005 (complete .keyClr stKP)) = 0x00000208 := by decide

/-- VM3 and R83's words of it. -/
theorem test_md5 :
    busRead (.pad 0) (complete .md5 State.reset) = 0x3613E74A ∧ busRead (.pad 3) (complete .md5 State.reset) = 0xA5184823 := by
  decide +kernel

theorem test_md5_status : status (complete .md5 State.reset) = 0x0000000A := by decide +kernel

/-- VW2. -/
theorem test_whiten_partial :
    (complete (.whiten 5) { stKP with din := be128 0x000102030405060708090a0b0c0d0e0f }).dout =
      be128 0x912ecee33f0000000000000000000000 := by decide

/-- VW6: the wrapped counter is no obstacle, and stays. -/
theorem test_whiten_wrapped : status (complete (.whiten 16) { stKP with ctrWrap := true }) = 0x0000001E := by decide

/-- VK1. -/
theorem test_ksgen :
    (complete .ksgen stK).dout = be128 0x4901932e2a388cfbc31932f01771015a ∧ (complete .ksgen stK).ctr = 1 := by decide +kernel

/-- VK6: the advance from 2^128 - 1. -/
theorem test_ksgen_wraps :
    (complete .ksgen { stK with ctr := BitVec.allOnes 128 }).ctr = 0 ∧
      status (complete .ksgen { stK with ctr := BitVec.allOnes 128 }) = 0x00000016 := by decide +kernel

/-- VK4: a partial block, zeros after it, one counter value used. -/
theorem test_ctrxor_partial :
    (complete (.ctrxor 3) { stK with din := capybara }).dout = be128 0x0a60e300000000000000000000000000 ∧
      (complete (.ctrxor 3) { stK with din := capybara }).ctr = 1 := by decide +kernel

/-- VC4, read through DOUT0 and DOUT3. -/
theorem test_crypt :
    busRead (.dout 0) (complete (.crypt 16) { stKP with din := capybara }) = 0xB72F4F9B ∧
      busRead (.dout 3) (complete (.crypt 16) { stKP with din := capybara }) = 0x650E4E90 := by decide +kernel

/-- VC5: the truncated block comes back as "Capybar". -/
theorem test_crypt_partial :
    (complete (.crypt 7) { stKP with din := be128 0x9b4f2fb77333cb000000000000000000 }).dout =
      be128 0x43617079626172000000000000000000 := by decide +kernel

/-! ### Registers and bus errors -/

/-- VR1. -/
theorem test_id : rd .id State.reset = some (.data 0x48544301) := by decide

/-- VR6. -/
theorem test_ctr_words :
    busRead (.ctr 0) { stK with ctr := 0x0102030405060708090a0b0c0d0e0f10 } = 0x04030201 ∧
      busRead (.ctr 3) { stK with ctr := 0x0102030405060708090a0b0c0d0e0f10 } = 0x100F0E0D := by decide

/-- VR8, one word: bytes 44556677 are written as 0x77665544. -/
theorem test_din_word :
    (wr (.din 1) 0x77665544 State.reset).din = be128 0x00000000445566770000000000000000 := by decide

/-- VR3 and VR4: KEY0 to KEY2 leave KEY_VALID at 0, KEY3 sets it. -/
theorem test_key_valid :
    status (wr (.key 2) 0 (wr (.key 1) 0 (wr (.key 0) 0 State.reset))) = 0x00000000 ∧
      status (wr (.key 3) 0 (wr (.key 2) 0 (wr (.key 1) 0 (wr (.key 0) 0 State.reset)))) = 0x00000004 := by decide

/-- VR10 and VR11. -/
theorem test_err_clr :
    status (wr .status 0x7FFFFFFF { State.reset with err := 3 }) = 0x00000300 ∧
      status (wr .status 0x80000000 { State.reset with err := 3 }) = 0x00000000 := by decide

/-- VR9 and VX9: the error response, and ERR, the pending command and every other item as before. -/
theorem test_bus_errors :
    ([⟨.bits32, 0x0C, .read⟩, ⟨.bits32, 0x60, .write 1⟩, ⟨.bits32, 0x02, .read⟩, ⟨.bits8, 0x04, .read⟩,
      ⟨.bits16, 0x04, .write 0⟩, ⟨.bits64, 0x10, .read⟩] : List Access).all
        (fun a => nextOf (step (facing [.access a] (pend .md5 { stKP with err := 2 }))) ==
          some { pend .md5 { stKP with err := 2 } with responses := [.error] }) = true := by decide

/-- After a bus error the engine completes the pending command (70_reset_and_hazards.md R180). -/
theorem test_completes_after_bus_error :
    (nextOf (step (act ⟨.bits8, 0x04, .read⟩ (pend .nop stKP)))).map (fun t => (t.pending, t.done)) =
      some (none, true) := by decide

/-- The register map's ends: 0x00, 0x5C. -/
theorem test_map_ends : regAt 0x00 = some .id ∧ regAt 0x1C = some (.key 3) ∧ regAt 0x5C = some (.pad 3) := by decide

/-! ### Errors and reset -/

/-- VX1: ERR_LEN wins over ERR_KEY and ERR_PAD. -/
theorem test_len_before_key : status (wr .cmd 0x00000007 State.reset) = 0x00000300 := by decide

/-- VX2 and VX3. -/
theorem test_key_before_pad :
    status (wr .cmd 0x00000107 State.reset) = 0x00000200 ∧ status (wr .cmd 0x00000107 stK) = 0x00000404 := by decide

/-- VK6's rejection, ERR_CTR. -/
theorem test_err_ctr : status (wr .cmd 0x00000106 { stK with ctrWrap := true }) = 0x00000614 := by decide

/-- VX4: no new code, DONE = 0. -/
theorem test_err_sticky :
    status (wr .cmd 0x00000008 { State.reset with err := 2, done := true }) = 0x00000200 := by decide

/-- VX6, before the completion. -/
theorem test_busy_writes :
    status (wr (.din 0) 0x11111111 (wr .cmd 0x00000003 State.reset)) = 0x00000501 ∧
      (wr (.din 0) 0x11111111 (wr .cmd 0x00000003 State.reset)).din = zeroBlock := by decide

/-- VX7, before the completion: ERR is cleared while BUSY. -/
theorem test_err_clr_busy :
    status (wr .status 0x80000000 (wr (.din 0) 1 (wr .cmd 0x00000003 State.reset))) = 0x00000001 := by decide

/-- VZ2: the pending MD5 is abandoned. -/
theorem test_reset_abandons :
    ((nextOf (step (facing [.rst] (pend .md5 stKP)))).map fun t => (t.pad, t.padValid, t.busy, t.done, t.pending)) =
      some (zeroBlock, false, false, false, none) := by decide

/-! ### The host's side -/

/-- VH1. -/
theorem test_target_len :
    [0, 1, 100, 127, 128, 129, 143, 144, 145, 4096].map targetLen =
      [128, 128, 128, 128, 128, 144, 144, 144, 160, 4096] := by decide

/-- VH2. -/
theorem test_millis :
    (millis { tzOffset := 0 } "2025-03-10 09:50:07.974000".toList).toOption = some 1741600207974 := by decide +kernel

/-- VH3; python_float is the default (00_scope.md R8). -/
theorem test_millis_modes :
    (millis { tzOffset := 0 } "1987-01-07 15:32:37.652000".toList).toOption = some 537031957651 ∧
      (millis ⟨0, .exact⟩ "1987-01-07 15:32:37.652000".toList).toOption = some 537031957652 := by decide +kernel

/-- VH5 and VH6. -/
theorem test_millis_refused :
    ["1969-12-31 23:59:59.999000", "2025-03-10 09:50:07.974", "2025-03-10T09:50:07.974000",
      "2025-3-10 09:50:07.974000"].all (fun T => (millis ⟨0, .exact⟩ T.toList).toOption.isNone) = true := by
  decide +kernel

/-- VH7: an odd number of digits, 15 bytes, none, and upper case. -/
theorem test_unhex :
    ["abc", "9b4f2fb77333cb93e610e57b904e0e", "", "9B4F2fb77333cb93e610e57b904e0e65"].map
      (fun H => (unhex H.toList).toOption.isSome) = [false, false, true, true] := by decide +kernel

/-- 30_encoding.md R81's two forms. -/
theorem test_disassemble :
    disassemble 0x00000107 = "CRYPT 16" ∧ disassemble 0x00000117 = ".word 0x00000117 ; badlen" ∧
      disassemble 0x8000000A = ".word 0x8000000A ; illegal" := by decide +kernel

/-- A program in every form of R77 to R79 is read; its first writes are those the encoding column of P1 gives. -/
theorem test_transcribe :
    ((transcribe ("LDKEY 4b656950796241726173000000000000 ; key\nw: RD STATUS -> %s\n BNZ %s, 0x1, w\nCRYPT 16 !" ++
      "\nRDOUT -> %c")).toOption.map fun p => (p.length, (assemble p).take 2)) =
      some (6, [.wr (.key 0) 0x5069654B, .wr (.key 1) 0x72416279]) := by decide +kernel

/-- R79: `%x` of a four-word read is the register's 16 bytes, and the value of `RDCTR -> %x` is CTR. -/
theorem test_block_variables :
    (((HostRun.start [(1, .rdctr "c")] { stKP with ctr := 8 }).run (List.replicate 4 .host)).counter "c" = some 8) ∧
      (((HostRun.start [(1, .rdpad "p")] stKP).run (List.replicate 4 .host)).block "p" = some stKP.pad) ∧
      (((HostRun.start [(1, .rdpad "p")] stKP).run (List.replicate 3 .host)).block "p" = none) := by decide +kernel

/-- R82: the line and the check of what the transcriber refuses. -/
theorem test_transcribe_refuses :
    ["FOO", "NOP\nWR KEY4, 0", "WR CMD, 4294967296", "CRYPT 17", "a:\na:", "BNZ %s, 1, a", "a: BNZ %s, 1, a"].map
      (fun p => match transcribe p with | .ok _ => none | .error e => some e) =
      [some (1, .mnemonic), some (2, .register), some (1, .immediate), some (1, .operand), some (2, .labelOnce),
       some (1, .labelDefined), some (1, .variableRead)] := by decide +kernel

/-- 95_test_vectors.md T7: the persisted line splits at its last run of white space. -/
theorem test_split_line :
    splitLine "2025-03-10 09:50:07.974000 9b4f".toList = ("2025-03-10 09:50:07.974000".toList, "9b4f".toList) := by
  decide +kernel

/-! ### A state for every statement with hypotheses -/

theorem witness_DecodeAndEncodeAgree :
    (Instr.crypt 1).wellFormed = true ∧ (Instr.crypt 16).wellFormed = true ∧ decode 0x00000107 = .cmd (.crypt 16) := by
  decide

theorem witness_DecoderVerdicts :
    State.reset.err = 0#4 ∧ decode 0x00000200 = .illegal ∧ decode 0x00000117 = .badLen ∧
      decode 0x00000014 = .cmd (.whiten 1) := by decide

theorem witness_LegalWordsAreThe53 :
    State.reset.busy = false ∧ State.reset.err = 0#4 ∧ (0x00000117 : Word) ∉ legalWords ∧
      (0x00000200 : Word) ∉ legalWords ∧ (0x00000104 : Word) ∈ legalWords := by decide

theorem witness_StepRunsThePendingCommand :
    (pend .md5 State.reset).pending = some .md5 ∧ (pend .md5 State.reset).inputs = [] ∧
      (facing [.engine] (pend .md5 State.reset)).inputs = .engine :: [] := by decide

theorem witness_FetchedWordRuns : decode 0x00000005 = .cmd .ksgen ∧ decode 0x00000104 = .cmd (.whiten 16) := by decide

/-- CRYPT 16 needs all three checks; NOP needs none. -/
theorem witness_CommandWriteThenCompletion :
    ∃ (s : State) (i : Instr), s.inputs = .access (Access.wr .cmd (encode i)) :: .engine :: [] ∧ i.wellFormed = true ∧
      s.busy = false ∧ s.err = 0#4 ∧ i.needsKey = true ∧ s.keyWmask = 0b1111#4 ∧ i.needsPad = true ∧
      s.padValid = true ∧ i.usesCtr = true ∧ s.ctrWrap = false :=
  ⟨facing [.access (Access.wr .cmd 0x00000107), .engine] stKP, .crypt 16, by decide⟩

theorem witness_IdleEngineWaits :
    State.reset.pending = none ∧ State.reset.inputs = [] ∧
      (facing [.engine, .rst] State.reset).inputs = .engine :: [.rst] := by decide

/-- One state for each clause, in the order of the checks. -/
theorem witness_CommandChecksInOrder :
    (pend .nop stKP).busy = true ∧
      (stKP.busy = false ∧ { stKP with err := 1 }.err ≠ 0#4) ∧
      (stKP.err = 0#4 ∧ decode 0x00000010 = .illegal ∧ decode 0x00000004 = .badLen) ∧
      (decode 0x00000107 = .cmd (.crypt 16) ∧ (Instr.crypt 16).op.toNat ∈ [5, 6, 7] ∧
        { stKP with keyWmask := 0b0111 }.keyWmask ≠ 0b1111#4) ∧
      (stK.keyWmask = 0b1111#4 ∧ (Instr.crypt 16).op.toNat ∈ [4, 7] ∧ stK.padValid = false) ∧
      (stKP.padValid = true ∧ { stKP with ctrWrap := true }.ctrWrap = true) ∧ stKP.ctrWrap = false := by decide

theorem witness_ControlCommandsNeedNothing :
    State.reset.busy = false ∧ State.reset.err = 0#4 ∧
      ([0, 1, 2] : List Word).all (fun v =>
        v.extractLsb' 4 5 == 0#5 && v.extractLsb' 9 23 == 0#23 && decide ((v.extractLsb' 0 4).toNat ≤ 2)) = true := by
  decide

theorem witness_ReservedBitsAreIllegal :
    (0x00000207 : Word).extractLsb' 9 23 ≠ 0#23 ∧ (0x80000107 : Word).extractLsb' 9 23 ≠ 0#23 ∧
      stKP.busy = false ∧ stKP.err = 0#4 := by decide

/-- An error that a step keeps, one that ERR_CLR clears, one that reset clears. -/
theorem witness_FirstErrorIsSticky :
    { State.reset with err := 2 }.err ≠ 0#4 ∧
      (nextOf (step { State.reset with err := 2 })).map (·.err) = some 2#4 ∧
      (nextOf (step (facing [.access (Access.wr .status 0x80000000)] { State.reset with err := 2 }))).map (·.err) =
        some 0#4 ∧
      (nextOf (step (facing [.rst] { State.reset with err := 6 }))).map (·.err) = some 0#4 := by decide

theorem witness_RejectedCommandsArePrecise :
    State.reset.busy = false ∧ (busWrite .cmd 0x00000107 State.reset).err = 2#4 ∧
      (busWrite .cmd 0x00000000 State.reset).busy = true := by decide

theorem witness_ReadsChangeNoState :
    (facing [.access (Access.rd .id)] (pend .md5 stKP)).inputs = .access (Access.rd .id) :: [] ∧
      (facing [.access (Access.rd (.pad 3))] stKP).inputs = .access (Access.rd (.pad 3)) :: [] := by decide

theorem witness_ReadOnlyWritesAreIgnored :
    (facing [.access (Access.wr .id 1)] (pend .md5 stKP)).inputs = .access (Access.wr .id 1) :: [] ∧
      (∃ k, (Reg.ctr 0) = .ctr k) ∧ (∃ k, (Reg.dout 3) = .dout k) ∧ ∃ k, (Reg.pad 3) = .pad k := by
  decide

theorem witness_StatusWriteClearsErr :
    (facing [.access (Access.wr .status 0x80000000)] (pend .md5 stKP)).inputs =
        .access (Access.wr .status 0x80000000) :: [] ∧
      (0x80000000 : Word).getLsbD 31 = true ∧ (0x7FFFFFFF : Word).getLsbD 31 = false := by decide

theorem witness_BusyWritesAreIgnored :
    (pend .md5 stKP).busy = true ∧ (∃ k, (Reg.key 3) = .key k) ∧ (∃ k, (Reg.din 0) = .din k) ∧
      ∃ k, (Reg.pad 3) = .pad k := by decide

theorem witness_WordPacking : stKP.busy = false := by decide

theorem witness_DinWriteReadsBack : stKP.busy = false ∧ (0 : Fin 4) ≠ 3 := by decide

theorem witness_KeyWriteSetsWordAndMask : stKP.busy = false := by decide

theorem witness_KeyValidNeedsAllFourWords :
    State.reset.busy = false ∧ State.reset.keyWmask = 0#4 ∧ stK.busy = false ∧ stK.keyValid = true := by decide

/-- Each reason for a bus error, and the ends of the window. -/
theorem witness_BusErrorExactly :
    (⟨.bits64, 0x04, .read⟩ : Access).listed = false ∧ (⟨.bits32, 0x05, .read⟩ : Access).listed = false ∧
      (⟨.bits32, 0x0C, .read⟩ : Access).listed = false ∧ (⟨.bits32, 0x60, .read⟩ : Access).listed = false ∧
      (⟨.bits32, 0x00, .read⟩ : Access).listed = true ∧ (⟨.bits32, 0x5C, .read⟩ : Access).listed = true ∧
      (facing [.access ⟨.bits32, 0x0C, .read⟩] stKP).inputs = .access ⟨.bits32, 0x0C, .read⟩ :: [] := by decide

theorem witness_ResetAbandonsThePendingCommand :
    (facing [.rst] (pend .md5 stKP)).inputs = .rst :: [] ∧ (facing [.rst] (pend .md5 stKP)).pending ≠ none := by decide

/-- A busy state that meets the invariants; the engine's turn completes its MD5. -/
theorem inv_pend : (pend .md5 stKP).Inv ∧ (pend .md5 stKP).PendingReady := by
  refine ⟨⟨by decide, by decide, by decide, by decide⟩, ?_⟩
  intro i hi
  cases hi
  decide

theorem witness_StepKeepsTheInvariant : ∃ s t : State, s.Inv ∧ step s = .next t :=
  ⟨pend .md5 stKP, _, inv_pend.1, step_no_input rfl⟩

theorem witness_StepKeepsPendingReady : ∃ s t : State, s.Inv ∧ s.PendingReady ∧ step s = .next t :=
  ⟨pend .md5 stKP, _, inv_pend.1, inv_pend.2, step_no_input rfl⟩

/-- A wrapped core that is idle. -/
def wrapped : State := { stKP with ctrWrap := true }

theorem inv_wrapped : wrapped.Inv ∧ wrapped.PendingReady :=
  ⟨⟨by decide, by decide, by decide, by decide⟩, fun _ h => nomatch h⟩

theorem witness_WrappedCounterIsLocked :
    ∃ s t : State, s.Inv ∧ s.PendingReady ∧ s.ctrWrap = true ∧ step s = .next t :=
  ⟨wrapped, _, inv_wrapped.1, inv_wrapped.2, rfl, step_no_input rfl⟩

theorem witness_StepKeepsWrapAtZero :
    ∃ s t : State, s.Inv ∧ s.PendingReady ∧ (s.ctrWrap = true → s.ctr = 0#128) ∧ step s = .next t ∧
      t.ctrWrap = true :=
  ⟨wrapped, _, inv_wrapped.1, inv_wrapped.2, fun _ => rfl, step_no_input rfl, rfl⟩

theorem witness_CounterChangesOnlyBy :
    ∃ s t : State, step s = .next t ∧ (t.ctr ≠ s.ctr ∨ t.ctrWrap ≠ s.ctrWrap) :=
  ⟨pend .ctrClr wrapped, _, step_no_input rfl, .inr (by decide)⟩

theorem witness_KeyChangesOnlyBy :
    ∃ s t : State, step s = .next t ∧ (t.key ≠ s.key ∨ t.keyWmask ≠ s.keyWmask) :=
  ⟨pend .keyClr stKP, _, step_no_input rfl, .inr (by decide)⟩

theorem witness_PadChangesOnlyBy :
    ∃ s t : State, step s = .next t ∧ (t.pad ≠ s.pad ∨ t.padValid ≠ s.padValid) ∧ s.padValid = true ∧
      t.padValid = false :=
  ⟨facing [.rst] stKP, (facing [] stKP).takeReset, step_input (x := .rst) (rest := []) rfl, .inr (by decide), by decide,
    by decide⟩

theorem witness_DinChangesOnlyBy : ∃ s t : State, step s = .next t ∧ t.din ≠ s.din :=
  ⟨facing [.access (Access.wr (.din 3) 1)] State.reset, _, step_write rfl, by decide⟩

theorem witness_DoutChangesOnlyBy : ∃ s t : State, step s = .next t ∧ t.dout ≠ s.dout :=
  ⟨pend (.whiten 16) { stKP with din := zeroBlock }, _, step_no_input rfl, by decide⟩

/-- Acceptance, completion, and a busy step. -/
theorem witness_LifecycleTransitions :
    (stKP.Inv ∧ stKP.busy = false ∧
        (nextOf (step (facing [.access (Access.wr .cmd 3)] stKP))).map (·.busy) = some true) ∧
      ((pend .nop stKP).busy = true ∧ (nextOf (step (pend .nop stKP))).map (·.busy) = some false) ∧
      (nextOf (step (facing [.access (Access.wr .cmd 3)] (pend .nop stKP)))).map (·.busy) = some true :=
  ⟨⟨⟨by decide, by decide, by decide, by decide⟩, by decide⟩, by decide, by decide⟩

/-- Two states that differ in KEY, with a command pending that does not use it, and with none. -/
theorem witness_KeyIsNotObservable :
    (pend .keyClr stKP).EqualButKey { pend .keyClr stKP with key := zeroBlock } ∧
      (pend .keyClr stKP).key ≠ zeroBlock ∧ Instr.keyClr.needsKey = false ∧
      (stKP.EqualButKey { stKP with key := zeroBlock } ∧ stKP.pending = none) :=
  ⟨rfl, by decide, rfl, rfl, rfl⟩

theorem witness_SnapshotEquivalence :
    (pend .md5 stKP).Inv ∧ (pend .md5 stKP).pending = some .md5 :=
  ⟨inv_pend.1, rfl⟩

theorem witness_PendingCommandCompletes :
    ∃ s : State, s.Inv ∧ s.pending ≠ none ∧ Input.rst ∉ s.inputs ∧ s.inputs ≠ [] :=
  ⟨facing [.access (Access.rd .status), .access ⟨.bits8, 0x04, .read⟩] (pend .md5 stKP),
    ⟨by decide, by decide, by decide, by decide⟩, by decide, by decide, by decide⟩

theorem witness_WhitenIsAnInvolution :
    (1 ≤ (1#5).toNat ∧ (16#5).toNat ≤ 16) ∧ ∃ t, exec (.whiten 16) (pend (.whiten 16) stKP) = .next t :=
  ⟨by decide, _, exec_whiten _ _⟩

theorem witness_KsgenAndCtrxorAgree : stK.din = zeroBlock := by decide

theorem witness_StreamCommandsAreTheirOwnInverse :
    (∃ t, exec (.ctrxor 16) (pend (.ctrxor 16) stK) = .next t) ∧ ∃ t, exec (.crypt 1) (pend (.crypt 1) stKP) = .next t :=
  ⟨⟨_, exec_ctrxor _ _⟩, _, exec_crypt _ _⟩

/-- The last byte processed and its highest bit, for LEN = 16. -/
theorem witness_BitFlipsPropagate : (15 : Fin 16).val < (16#5).toNat ∧ (0 : Fin 16).val < (1#5).toNat ∧ 7 < 8 := by
  decide

theorem witness_MessageIsPlainXorKeystreamXorPad :
    stKP.pending = none ∧ stKP.busy = false ∧ stKP.err = 0#4 ∧ stKP.keyValid = true ∧
      [capybara, zeroBlock].length < 2 ^ 128 := by decide

/-- The message "A"; its encryption succeeds. -/
theorem witness_EncryptDecryptRoundTrip :
    stK.pending = none ∧ stK.busy = false ∧ stK.err = 0#4 ∧ stK.keyValid = true ∧ ([0x41] : List Byte).length ≤ 4096 ∧
      ([0x41] : List Byte).getLast? ≠ some 0 ∧
      ∃ H t, encryptMessage ⟨0, .exact⟩ "2025-03-10 09:50:07.974000".toList [0x41] (fun _ => 0) stK = .ok (H, t) := by
  refine ⟨by decide, by decide, by decide, by decide, by decide, by decide, ?_⟩
  have ok :
      (encryptMessage ⟨0, .exact⟩ "2025-03-10 09:50:07.974000".toList [0x41] (fun _ => 0) stK).toOption.isSome = true := by
    decide +kernel
  revert ok
  generalize encryptMessage _ _ _ _ _ = r
  intro ok
  match r, ok with
  | .ok (H, t), _ => exact ⟨H, t, rfl⟩

theorem witness_DisassemblyReadsBack : (Instr.crypt 16).wellFormed = true ∧ Instr.nop.wellFormed = true := by decide

theorem witness_TargetLenRule : 127 < 128 ∧ 128 ≤ 128 ∧ ([] : List Byte).length = 0 := by decide

theorem witness_HexReadsBack :
    ([] : List Byte).length % 16 = 0 ∧ (List.replicate 16 (0xAB : Byte)).length % 16 = 0 ∧
      'a' ∈ hexOf [0xAB] ∧ "abc".toList.length % 2 = 1 := by decide +kernel

end Sys2Proof.Tests
end

section
/-! The statements of 00_scope.md: the byte order of the counter (R12, R27), and the engine's step as the pending
command's completion (R9). -/

namespace Sys2Proof.Machine

/-! ### `be128` and `int_be` -/

/-- One more byte at the low end of a counter value: what `int_be` does with each byte in turn (R12). -/
def shiftInByte (b : Byte) (n : Counter) : Counter := n <<< 8 ||| b.setWidth 128

theorem getLsbD_shiftInByte (b : Byte) (n : Counter) (i : Nat) (hi : i < 128) :
    (shiftInByte b n).getLsbD i = if i < 8 then b.getLsbD i else n.getLsbD (i - 8) := by
  by_cases h8 : i < 8
  · simp [shiftInByte, hi, h8]
  · simp [shiftInByte, hi, h8, BitVec.getLsbD_of_ge b i (by omega),
      BitVec.getLsbD_eq_getElem (show i - 8 < 128 by omega)]

/-- The lowest byte is the one shifted in. -/
theorem extractLsb'_shiftInByte_zero (b : Byte) (n : Counter) : (shiftInByte b n).extractLsb' 0 8 = b := by
  apply BitVec.eq_of_getLsbD_eq
  intro i hi
  simp [hi, getLsbD_shiftInByte b n i (by omega)]

/-- Every other byte is the one below it before the shift. -/
theorem extractLsb'_shiftInByte_succ (b : Byte) (n : Counter) (j : Nat) (hj : j + 1 < 16) :
    (shiftInByte b n).extractLsb' (8 * (j + 1)) 8 = n.extractLsb' (8 * j) 8 := by
  apply BitVec.eq_of_getLsbD_eq
  intro i hi
  have hbit : 8 * (j + 1) + i - 8 = 8 * j + i := by omega
  simp [hi, getLsbD_shiftInByte b n (8 * (j + 1) + i) (by omega), hbit, show ¬ 8 * (j + 1) + i < 8 by omega]

/-- `int_be` read from the last byte of the block to the first. -/
theorem intBe_eq_foldr (X : Block) : intBe X = X.toList.reverse.foldr shiftInByte 0 := List.foldl_eq_foldr_reverse

/-- Bytes shifted in one after the other stand in the value in that order, the last one lowest. -/
theorem extractLsb'_foldr_shiftInByte (l : List Byte) (j : Nat) (hj : j < 16) (hl : j < l.length) :
    (l.foldr shiftInByte 0).extractLsb' (8 * j) 8 = l[j] := by
  induction l generalizing j with
  | nil => simp at hl
  | cons b l ih =>
    cases j with
    | zero => exact extractLsb'_shiftInByte_zero b _
    | succ j =>
      have hl' : j < l.length := by simpa using hl
      calc ((b :: l).foldr shiftInByte 0).extractLsb' (8 * (j + 1)) 8
          = (l.foldr shiftInByte 0).extractLsb' (8 * j) 8 := extractLsb'_shiftInByte_succ b _ j hj
        _ = l[j] := ih j (by omega) hl'

/-- Byte `i` of the block is byte `15 - i` of its value: byte 0 is the most significant (R12). -/
theorem extractLsb'_intBe (X : Block) (i : Nat) (hi : i < 16) :
    (intBe X).extractLsb' (8 * (15 - i)) 8 = X[i] := by
  rw [intBe_eq_foldr, extractLsb'_foldr_shiftInByte _ (15 - i) (by omega) (by simp; omega)]
  simp [show 15 - (15 - i) = i by omega]

@[simp] theorem be128_intBe (X : Block) : be128 (intBe X) = X := by
  apply block_ext
  intro i hi
  rw [getElem_be128 _ i hi, extractLsb'_intBe X i hi]

/-- The 16 bytes of a counter value determine every one of its bits. -/
theorem be128_injective : Function.Injective be128 := by
  intro m n h
  apply BitVec.eq_of_getLsbD_eq
  intro i hi
  have hbyte : m.extractLsb' (8 * (i / 8)) 8 = n.extractLsb' (8 * (i / 8)) 8 := by
    have hget : (be128 m)[15 - i / 8] = (be128 n)[15 - i / 8] := by rw [h]
    simpa [show 15 - (15 - i / 8) = i / 8 by omega] using hget
  have hbit := congrArg (fun b => b.getLsbD (i % 8)) hbyte
  simpa [show i % 8 < 8 by omega, Nat.div_add_mod] using hbit

@[simp] theorem intBe_be128 (n : Counter) : intBe (be128 n) = n := be128_injective (be128_intBe (be128 n))

/-- The four words read through CTR0..CTR3 are the 16 bytes of the counter (R27, R47). -/
theorem blockOfWords_busRead_ctr (s : State) : blockOfWords (fun k => busRead (.ctr k) s) = be128 s.ctr :=
  blockOfWords_wordOf (be128 s.ctr)

/-! ### The engine's turn -/

/-- The engine's turn with a command pending is that command's completion (70_reset_and_hazards.md R175). -/
theorem engineStep_pending {s : State} {i : Instr} (h : s.pending = some i) : engineStep s = exec i s := by
  rw [engineStep, h]

/-- Settles O31: both functions place byte `i` of the block at byte `15 - i` of the value, and CTR0..CTR3 are the four
words of `be128(CTR)`. -/
theorem counterBytesAreBigEndian : Obligations.CounterBytesAreBigEndian := by
  refine ⟨intBe_be128, be128_intBe, fun s => ?_⟩
  rw [blockOfWords_busRead_ctr, intBe_be128]

/-- Settles O5: with no input left the step is the engine's, with the engine's turn next it is the engine's on the
state without that turn; either way PENDING is the same command. -/
theorem stepRunsThePendingCommand : Obligations.StepRunsThePendingCommand := by
  intro s i hp
  refine ⟨fun hi => ?_, fun rest hi => ?_⟩
  · rw [step_no_input hi, engineStep_pending hp]
  · rw [step_input hi, takeInput]
    exact engineStep_pending (s := { s with inputs := rest }) hp

end Sys2Proof.Machine
end

section
/-! The statements of 10_state.md about single state items: STATUS (R25), the writes of DIN and KEY (R26, R29, R40), the
reset values (R38), and what changes each item (R26 to R31). -/

namespace Sys2Proof.Machine

/-! ### Words of a block (20_memory.md R47) -/

/-- The word written is the word read. -/
@[simp] theorem wordOf_setWord_same (X : Block) (k : Fin 4) (v : Word) : wordOf (setWord X k v) k = v := by
  have hdiv (j : Nat) (hj : j < 4) : (4 * k.val + j) / 4 = k.val := by omega
  calc wordOf (setWord X k v) k
      = le32 (wordByte v 0) (wordByte v 1) (wordByte v 2) (wordByte v 3) := by
        simp [wordOf, hdiv]
    _ = v := le32_wordByte v

/-- The other words are kept. -/
theorem wordOf_setWord_ne (X : Block) {k l : Fin 4} (v : Word) (h : l ≠ k) : wordOf (setWord X k v) l = wordOf X l := by
  have hlk : l.val ≠ k.val := Fin.val_ne_of_ne h
  have hdiv (j : Nat) (hj : j < 4) : (4 * l.val + j) / 4 = l.val := by omega
  simp [wordOf, hdiv, hlk]

/-! ### Writes of DINk and KEYk while idle -/

theorem busWrite_din_idle {s : State} (k : Fin 4) (v : Word) (h : s.busy = false) :
    busWrite (.din k) v s = s.loadDin k v := unlessBusy_idle h

theorem busWrite_key_idle {s : State} (k : Fin 4) (v : Word) (h : s.busy = false) :
    busWrite (.key k) v s = s.loadKey k v := unlessBusy_idle h

/-- A KEYk write sets bit `k` of KEY_WMASK and keeps the other bits (R26). -/
theorem getLsbD_loadKey_keyWmask (s : State) (k : Fin 4) (v : Word) (l : Fin 4) :
    (s.loadKey k v).keyWmask.getLsbD l.val = (decide (l = k) || s.keyWmask.getLsbD l.val) := by
  have bit : ∀ k l : Fin 4, (1#4 <<< k.val).getLsbD l.val = decide (l = k) := by decide
  rw [State.loadKey_keyWmask, BitVec.getLsbD_or, bit, Bool.or_comm]

/-- KEY_VALID is the conjunction of the four bits of KEY_WMASK (R26). -/
theorem keyValid_iff_bits (s : State) : s.keyValid = true ↔ ∀ k : Fin 4, s.keyWmask.getLsbD k.val = true := by
  have full : ∀ m : BitVec 4, m = 0b1111#4 ↔ ∀ k : Fin 4, m.getLsbD k.val = true := by decide
  rw [State.keyValid, beq_iff_eq, full]

/-- The core after a list of KEYk writes, oldest first. -/
def writeKeys (ws : List (Fin 4 × Word)) (s : State) : State := ws.foldl (fun t w => busWrite (.key w.1) w.2 t) s

/-- After KEYk writes on an idle core, bit `k` of KEY_WMASK tells whether it was set before or KEYk was written. -/
theorem getLsbD_writeKeys_keyWmask (ws : List (Fin 4 × Word)) {s : State} (h : s.busy = false) (k : Fin 4) :
    (writeKeys ws s).keyWmask.getLsbD k.val = true ↔ s.keyWmask.getLsbD k.val = true ∨ ∃ v, (k, v) ∈ ws := by
  induction ws generalizing s with
  | nil => simp [writeKeys]
  | cons w ws ih =>
    obtain ⟨l, x⟩ := w
    have hcons : writeKeys ((l, x) :: ws) s = writeKeys ws (s.loadKey l x) := by
      rw [← busWrite_key_idle l x h]
      rfl
    rw [hcons, ih (by simpa using h), getLsbD_loadKey_keyWmask]
    by_cases hk : k = l <;> simp [hk]

/-! ### STATUS bit by bit (R25) -/

theorem getLsbD_flagBit (b : Bool) (n j : Nat) (hn : n < 32) : (flagBit b n).getLsbD j = (decide (j = n) && b) := by
  rw [flagBit, BitVec.getLsbD_shiftLeft, BitVec.getLsbD_setWidth, BitVec.getLsbD_ofBool]
  rcases Nat.lt_trichotomy j n with h | rfl | h
  · simp [h, Nat.ne_of_lt h]
  · simp [hn]
  · simp [Nat.ne_of_gt h, show j - n ≠ 0 by omega]

/-- Bit `j` of STATUS: one flag in each of the bits 0 to 4, ERR from bit 8 on. -/
theorem getLsbD_statusWord (s : State) (j : Nat) :
    s.statusWord.getLsbD j =
      (decide (j = 0) && s.busy || decide (j = 1) && s.done || decide (j = 2) && s.keyValid ||
        decide (j = 3) && s.padValid || decide (j = 4) && s.ctrWrap || decide (8 ≤ j) && s.err.getLsbD (j - 8)) := by
  have herr : (s.err.setWidth 32 <<< 8).getLsbD j = (decide (8 ≤ j) && s.err.getLsbD (j - 8)) := by
    rw [BitVec.getLsbD_shiftLeft, BitVec.getLsbD_setWidth]
    by_cases h12 : j < 12
    · simp [show j < 32 by omega, show j - 8 < 32 by omega, ← decide_not]
    · simp [BitVec.getLsbD_of_ge s.err (j - 8) (by omega)]
  simp [State.statusWord, herr, getLsbD_flagBit]

/-- From bit 8 on STATUS holds ERR and zeros. -/
theorem getLsbD_statusWord_high (s : State) (j : Nat) : s.statusWord.getLsbD (8 + j) = s.err.getLsbD j := by
  have flag (n : Nat) (hn : n < 8) : decide (8 + j = n) = false := by simp; omega
  simp [getLsbD_statusWord, flag]

/-! ### What a completion and an access leave unchanged -/

/-- The counter-using commands by name (R28). -/
theorem usesCtr_iff (i : Instr) : i.usesCtr = true ↔ i = .ksgen ∨ (∃ n, i = .ctrxor n) ∨ ∃ n, i = .crypt n := by
  cases i <;> simp [Instr.usesCtr]

/-- Of the commands that need the pad, only WHITEN does not use the counter. -/
theorem exists_whiten_of_needsPad {i : Instr} (hp : i.needsPad = true) (hc : i.usesCtr = false) :
    ∃ n, i = .whiten n := by
  cases i <;> simp_all [Instr.needsPad, Instr.usesCtr]

/-- The data a completion can touch: CTR and CTR_WRAP only by CTR_CLR and the counter-using commands, KEY and KEY_WMASK
only by KEY_CLR, PAD and PAD_VALID only by MD5, DOUT only by WHITEN and the counter-using commands, DIN never (R36). -/
theorem exec_frame {i : Instr} {s t : State} (h : exec i s = .next t) :
    (t.ctr = s.ctr ∧ t.ctrWrap = s.ctrWrap ∨ i = .ctrClr ∨ i.usesCtr = true) ∧
      (t.key = s.key ∧ t.keyWmask = s.keyWmask ∨ i = .keyClr) ∧
      (t.pad = s.pad ∧ t.padValid = s.padValid ∨ i = .md5 ∧ t.padValid = true) ∧
      (t.dout = s.dout ∨ (∃ n, i = .whiten n) ∨ i.usesCtr = true) ∧ t.din = s.din := by
  obtain ⟨u, hu, hcases⟩ := exec_cases i s
  obtain rfl : u.finish = t := by simpa [hu] using h
  rcases hcases with ⟨-, rfl⟩ | ⟨hi, rfl⟩ | ⟨hi, rfl⟩ | ⟨hi, rfl⟩ | ⟨hp, hc, X, rfl⟩ | ⟨hc, -, X, rfl⟩
  · simp
  · simp [hi]
  · simp [hi]
  · simp [hi]
  · simp [exists_whiten_of_needsPad hp hc]
  · simp [hc]

/-- The data an access can touch: KEY and KEY_WMASK only by a KEYk write and DIN only by a DINk write, both while idle;
CTR, CTR_WRAP, DOUT, PAD and PAD_VALID never (20_memory.md R48, R49, R54). -/
theorem busAccess_frame (a : Access) (s : State) :
    (busAccess a s).ctr = s.ctr ∧ (busAccess a s).ctrWrap = s.ctrWrap ∧ (busAccess a s).dout = s.dout ∧
      (busAccess a s).pad = s.pad ∧ (busAccess a s).padValid = s.padValid ∧
      ((busAccess a s).key = s.key ∧ (busAccess a s).keyWmask = s.keyWmask ∨
        s.busy = false ∧ ∃ k v, a = Access.wr (.key k) v) ∧
      ((busAccess a s).din = s.din ∨ s.busy = false ∧ ∃ k v, a = Access.wr (.din k) v) := by
  rcases busAccess_cases a s with ⟨-, e⟩ | ⟨r, hr, e⟩ <;> rw [e]
  · simp
  cases hk : a.kind with
  | read => simp [performAccess]
  | write v =>
    obtain rfl := eq_wr_of_target hr hk
    obtain ⟨hctr, hwrap, hdout, hpad, hvalid, hkey, hdin⟩ := busWrite_frame r v s
    refine ⟨hctr, hwrap, hdout, hpad, hvalid, hkey.imp_right ?_, hdin.imp_right ?_⟩
    · rintro ⟨hb, k, rfl⟩
      exact ⟨hb, k, v, rfl⟩
    · rintro ⟨hb, k, rfl⟩
      exact ⟨hb, k, v, rfl⟩

/-- What a step does to the pad: nothing, or it is a reset or the completion of MD5, which sets PAD_VALID (R30). -/
theorem step_pad {s t : State} (h : step s = .next t) :
    (t.pad = s.pad ∧ t.padValid = s.padValid) ∨ s.inputs.head? = some .rst ∨
      (s.EngineNext ∧ s.pending = some .md5 ∧ t.padValid = true) := by
  obtain ⟨rest, -, ⟨-, -, rfl⟩ | ⟨he, i, hp, hx⟩ | ⟨a, -, rfl⟩ | ⟨hr, -⟩⟩ := step_cases h
  · exact .inl ⟨rfl, rfl⟩
  · obtain ⟨-, -, hsame | ⟨rfl, hset⟩, -⟩ := exec_frame hx
    · exact .inl hsame
    · exact .inr (.inr ⟨he, hp, hset⟩)
  · obtain ⟨-, -, -, hpad, hvalid, -⟩ := busAccess_frame a { s with inputs := rest }
    exact .inl ⟨hpad, hvalid⟩
  · exact .inr (.inl hr)

/-! ### The obligations -/

/-- Settles O30: bit `k` of KEY_WMASK is set exactly by the KEYk writes, and a set bit stays set. -/
theorem keyValidNeedsAllFourWords : Obligations.KeyValidNeedsAllFourWords := by
  refine ⟨fun s ws hb hm => ?_, fun s k v hb hv => ?_⟩
  · change (writeKeys ws s).keyValid = true ↔ _
    simp only [keyValid_iff_bits, getLsbD_writeKeys_keyWmask ws hb, hm, BitVec.getLsbD_zero, Bool.false_eq_true,
      false_or]
  · rw [busWrite_key_idle k v hb]
    refine ⟨?_, wordOf_setWord_same _ _ _, fun l hl => wordOf_setWord_ne _ _ hl⟩
    rw [keyValid_iff_bits] at hv ⊢
    intro l
    rw [getLsbD_loadKey_keyWmask, hv l, Bool.or_true]

/-- Settles O41: no access moves the counter, and a completion does so only for the commands `exec_frame` names. -/
theorem counterChangesOnlyBy : Obligations.CounterChangesOnlyBy := by
  intro s t h hne
  obtain ⟨rest, -, ⟨-, -, rfl⟩ | ⟨he, i, hp, hx⟩ | ⟨a, -, rfl⟩ | ⟨hr, -⟩⟩ := step_cases h
  · simp at hne
  · obtain ⟨hsame | hcmd, -⟩ := exec_frame hx
    · simp [hsame] at hne
    · exact .inr ⟨he, i, hp, hcmd.imp_right (usesCtr_iff i).1⟩
  · obtain ⟨hctr, hwrap, -⟩ := busAccess_frame a { s with inputs := rest }
    simp [hctr, hwrap] at hne
  · exact .inl hr

/-- Settles O42: of the accesses only an idle KEYk write touches KEY, of the completions only KEY_CLR. -/
theorem keyChangesOnlyBy : Obligations.KeyChangesOnlyBy := by
  intro s t h hne
  obtain ⟨rest, -, ⟨-, -, rfl⟩ | ⟨he, i, hp, hx⟩ | ⟨a, ha, rfl⟩ | ⟨hr, -⟩⟩ := step_cases h
  · simp at hne
  · obtain ⟨-, hsame | rfl, -⟩ := exec_frame hx
    · simp [hsame] at hne
    · exact .inr (.inl ⟨he, hp⟩)
  · obtain ⟨-, -, -, -, -, hsame | ⟨hb, k, v, rfl⟩, -⟩ := busAccess_frame a { s with inputs := rest }
    · simp [hsame] at hne
    · exact .inr (.inr ⟨hb, k, v, ha⟩)
  · exact .inl hr

/-- Settles O43: MD5 is the only command that touches PAD_VALID, and it sets it. -/
theorem padChangesOnlyBy : Obligations.PadChangesOnlyBy := by
  intro s t h
  rcases step_pad h with ⟨hpad, hvalid⟩ | hr | ⟨he, hp, hset⟩
  · exact ⟨fun hne => by simp [hpad, hvalid] at hne, fun hold hnew => by simp [← hvalid, hnew] at hold⟩
  · exact ⟨fun _ => .inl hr, fun _ _ => hr⟩
  · exact ⟨fun _ => .inr ⟨he, hp⟩, fun _ hnew => by simp [hset] at hnew⟩

/-- Settles O44: no completion touches DIN, and of the accesses only an idle DINk write. -/
theorem dinChangesOnlyBy : Obligations.DinChangesOnlyBy := by
  intro s t h hne
  obtain ⟨rest, -, ⟨-, -, rfl⟩ | ⟨-, i, -, hx⟩ | ⟨a, ha, rfl⟩ | ⟨hr, -⟩⟩ := step_cases h
  · exact absurd rfl hne
  · obtain ⟨-, -, -, -, hsame⟩ := exec_frame hx
    exact absurd hsame hne
  · obtain ⟨-, -, -, -, -, -, hsame | ⟨hb, k, v, rfl⟩⟩ := busAccess_frame a { s with inputs := rest }
    · exact absurd hsame hne
    · exact .inr ⟨hb, k, v, ha⟩
  · exact .inl hr

/-- Settles O45: no access touches DOUT, and a completion does so only for the commands `exec_frame` names. -/
theorem doutChangesOnlyBy : Obligations.DoutChangesOnlyBy := by
  intro s t h hne
  obtain ⟨rest, -, ⟨-, -, rfl⟩ | ⟨he, i, hp, hx⟩ | ⟨a, -, rfl⟩ | ⟨hr, -⟩⟩ := step_cases h
  · exact absurd rfl hne
  · obtain ⟨-, -, -, hsame | hcmd, -⟩ := exec_frame hx
    · exact absurd hsame hne
    · exact .inr ⟨he, i, hp, hcmd.imp_right (usesCtr_iff i).1⟩
  · obtain ⟨-, -, hdout, -⟩ := busAccess_frame a { s with inputs := rest }
    exact absurd hdout hne
  · exact .inl hr

/-- Settles O26: each flag is one bit of `getLsbD_statusWord`, and from bit 8 on STATUS is ERR. -/
theorem statusWordBits : Obligations.StatusWordBits := by
  intro s
  have bit (j : Nat) : (busRead .status s).getLsbD j = _ := getLsbD_statusWord s j
  have high (j : Nat) : (busRead .status s).getLsbD (8 + j) = s.err.getLsbD j := getLsbD_statusWord_high s j
  refine ⟨?_, ?_, ?_, ?_, ?_, ?_, ?_⟩
  · rw [bit]; simp
  · rw [bit]; simp
  · rw [bit]; simp [State.keyValid]
  · rw [bit]; simp
  · rw [bit]; simp
  · apply BitVec.eq_of_getLsbD_eq
    intro i hi
    simp [hi, high]
  · rintro j (rfl | rfl | rfl | hj)
    · rw [bit]; simp
    · rw [bit]; simp
    · rw [bit]; simp
    · obtain ⟨i, rfl⟩ := Nat.exists_eq_add_of_le (show 8 ≤ j by omega)
      rw [high, BitVec.getLsbD_of_ge s.err i (by omega)]

/-- Settles O28: the write is `loadDin`, which sets word `k` of DIN. -/
theorem dinWriteReadsBack : Obligations.DinWriteReadsBack := by
  intro s k v hb
  rw [busWrite_din_idle k v hb]
  exact ⟨wordOf_setWord_same _ _ _, fun l hl => wordOf_setWord_ne _ _ hl, rfl⟩

/-- Settles O29: the write is `loadKey`, which sets word `k` of KEY and bit `k` of KEY_WMASK. -/
theorem keyWriteSetsWordAndMask : Obligations.KeyWriteSetsWordAndMask := by
  intro s k v hb
  rw [busWrite_key_idle k v hb]
  exact ⟨fun i => getElem_setWord s.key k v i.val i.isLt, getLsbD_loadKey_keyWmask s k v, rfl⟩

/-- Settles O34: each item by its reset lemma; STATUS reads 0 by evaluation. -/
theorem resetValues : Obligations.ResetValues := by
  refine ⟨fun i => by simp, rfl, rfl, rfl, rfl, rfl, rfl, rfl, rfl, rfl, by decide⟩

end Sys2Proof.Machine
end

section
/-! The invariants of 10_state.md R41: they hold at reset and every step keeps them. -/

namespace Sys2Proof.Machine

variable {s t : State}

/-! ### One lemma for each thing a step is made of -/

/-- The invariant speaks of BUSY, PENDING, ERR, PAD, PAD_VALID and DONE only. That an update keeps these six is left to
its lemmas in the simp set. -/
theorem State.Inv.congr (h : s.Inv) (hb : t.busy = s.busy := by simp) (hp : t.pending = s.pending := by simp)
    (he : t.err = s.err := by simp) (hpad : t.pad = s.pad := by simp) (hv : t.padValid = s.padValid := by simp)
    (hd : t.done = s.done := by simp) : t.Inv where
  busy_iff := by rw [hb, hp, h.busy_iff]
  err_le := he ▸ h.err_le
  pad_zero := by rw [hv, hpad]; exact h.pad_zero
  done_idle := by rw [hd, hb]; exact h.done_idle

/-- The codes of R145 are 1 to 6. -/
theorem CmdError.code_le (c : CmdError) : c.code.toNat ≤ 6 := by cases c <;> decide

theorem State.Inv.raiseError (h : s.Inv) (c : CmdError) : (s.raiseError c).Inv where
  busy_iff := h.busy_iff
  err_le := by
    rw [State.raiseError_err]
    split
    · exact c.code_le
    · exact h.err_le
  pad_zero := h.pad_zero
  done_idle := h.done_idle

theorem State.Inv.clearErr (h : s.Inv) : s.clearErr.Inv where
  busy_iff := h.busy_iff
  err_le := by simp
  pad_zero := h.pad_zero
  done_idle := h.done_idle

theorem State.Inv.clearDone (h : s.Inv) : s.clearDone.Inv where
  busy_iff := h.busy_iff
  err_le := h.err_le
  pad_zero := h.pad_zero
  done_idle := by simp

/-- Acceptance sets BUSY and PENDING together and clears DONE. -/
theorem State.Inv.accept (h : s.Inv) (i : Instr) : (s.accept i).Inv where
  busy_iff := by simp
  err_le := h.err_le
  pad_zero := h.pad_zero
  done_idle := by simp

/-- A completion clears BUSY and PENDING together and sets DONE. -/
theorem State.Inv.finish (h : s.Inv) : s.finish.Inv where
  busy_iff := by simp
  err_le := h.err_le
  pad_zero := h.pad_zero
  done_idle := by simp

/-- A digest in PAD comes with PAD_VALID = 1. -/
theorem State.Inv.setPad (h : s.Inv) (X : Block) : (s.setPad X).Inv where
  busy_iff := h.busy_iff
  err_le := h.err_le
  pad_zero := by simp
  done_idle := h.done_idle

theorem State.Inv.issueCommand (h : s.Inv) (v : Word) : (issueCommand v s).Inv := by
  rcases issueCommand_cases v s with e | ⟨c, e⟩ | ⟨i, -, -, -, e⟩ <;> rw [e]
  · exact h.clearDone
  · exact h.clearDone.raiseError c
  · exact h.clearDone.accept i

theorem State.Inv.busWrite (h : s.Inv) (r : Reg) (v : Word) : (busWrite r v s).Inv := by
  rcases busWrite_cases r v s with e | e | ⟨-, e⟩ | ⟨-, -, e⟩ | ⟨-, k, -, e⟩ | ⟨-, k, -, e⟩ <;> rw [e]
  · exact h
  · exact h.clearErr
  · exact h.raiseError .busy
  · exact h.issueCommand v
  · exact h.congr
  · exact h.congr

theorem State.Inv.respond (h : s.Inv) (r : Response) : (s.respond r).Inv := h.congr

theorem State.Inv.busAccess (h : s.Inv) (a : Access) : (busAccess a s).Inv := by
  rcases busAccess_cases a s with ⟨-, e⟩ | ⟨r, -, e⟩ <;> rw [e]
  · exact h.respond .error
  cases a.kind with
  | read => exact h.respond _
  | write v => exact (h.busWrite r v).respond .okay

/-- A completion: whatever the command's data update is, it is followed by `finish`. -/
theorem State.Inv.exec (h : s.Inv) {i : Instr} (hx : exec i s = .next t) : t.Inv := by
  obtain ⟨u, hu, hcases⟩ := exec_cases i s
  obtain rfl : u.finish = t := by simpa [hu] using hx
  apply State.Inv.finish
  rcases hcases with ⟨-, rfl⟩ | ⟨-, rfl⟩ | ⟨-, rfl⟩ | ⟨-, rfl⟩ | ⟨-, -, X, rfl⟩ | ⟨-, -, X, rfl⟩
  · exact h
  · exact h.congr
  · exact h.congr
  · exact h.setPad _
  · exact h.congr
  · exact h.congr

theorem reset_inv : State.reset.Inv where
  busy_iff := by simp
  err_le := by simp
  pad_zero := by simp
  done_idle := by simp

/-! ### The obligations -/

/-- Settles O36: at reset nothing is pending, so nothing is pending that is not ready. -/
theorem resetMeetsTheInvariant : Obligations.ResetMeetsTheInvariant :=
  ⟨reset_inv, fun i hi => by simp at hi⟩

/-- Settles O37: each of the four things a step can be keeps the invariant. -/
theorem stepKeepsTheInvariant : Obligations.StepKeepsTheInvariant := by
  intro s t h hstep
  obtain ⟨rest, -, hcases⟩ := step_cases hstep
  have hrest : ({ s with inputs := rest } : State).Inv := h.congr
  rcases hcases with ⟨-, -, rfl⟩ | ⟨-, i, -, hx⟩ | ⟨a, -, rfl⟩ | ⟨-, rfl⟩
  · exact hrest
  · exact hrest.exec hx
  · exact hrest.busAccess a
  · exact reset_inv.congr

end Sys2Proof.Machine
end

section
/-! KEY is not observable (10_state.md R26, R43): every operation but the completion of a key-using command takes
states that differ in KEY at most to such states again. -/

namespace Sys2Proof.Machine

/-! ### States that differ in KEY -/

/-- The states equal to `t` in all but KEY are those that hold some key in its place. -/
theorem equalButKey_iff {s t : State} : s.EqualButKey t ↔ ∃ K, s = { t with key := K } :=
  ⟨fun h => ⟨s.key, h⟩, by rintro ⟨K, rfl⟩; rfl⟩

theorem State.EqualButKey.busy_eq {s t : State} (h : s.EqualButKey t) : s.busy = t.busy := by
  obtain ⟨K, rfl⟩ := equalButKey_iff.1 h
  rfl

theorem State.EqualButKey.inputs_eq {s t : State} (h : s.EqualButKey t) : s.inputs = t.inputs := by
  obtain ⟨K, rfl⟩ := equalButKey_iff.1 h
  rfl

theorem State.EqualButKey.pending_eq {s t : State} (h : s.EqualButKey t) : s.pending = t.pending := by
  obtain ⟨K, rfl⟩ := equalButKey_iff.1 h
  rfl

theorem State.EqualButKey.responses_eq {s t : State} (h : s.EqualButKey t) : s.responses = t.responses := by
  obtain ⟨K, rfl⟩ := equalButKey_iff.1 h
  rfl

/-! ### The accesses -/

/-- No read shows KEY (20_memory.md R50). -/
theorem busRead_setKey (r : Reg) (t : State) (K : Block) : busRead r { t with key := K } = busRead r t := by
  cases r <;> rfl

/-- A CMD write neither reads nor writes KEY: its checks read KEY_WMASK (60_exceptions.md R147). -/
theorem issueCommand_setKey (v : Word) (t : State) (K : Block) :
    issueCommand v { t with key := K } = { issueCommand v t with key := K } := by
  unfold issueCommand
  split
  · rfl
  cases decode v with
  | illegal => rfl
  | badLen => rfl
  | cmd i =>
    have hneed : needError i ({ t with key := K } : State).clearDone = needError i t.clearDone :=
      needError_congr i rfl rfl rfl
    simp only [State.tryAccept, hneed]
    cases needError i t.clearDone <;> rfl

theorem State.EqualButKey.raiseError {s t : State} (h : s.EqualButKey t) (c : CmdError) :
    (s.raiseError c).EqualButKey (t.raiseError c) := by
  obtain ⟨K, rfl⟩ := equalButKey_iff.1 h
  rfl

theorem State.EqualButKey.unlessBusy {s t s' t' : State} (h : s.EqualButKey t) (h' : s'.EqualButKey t') :
    (s.unlessBusy s').EqualButKey (t.unlessBusy t') := by
  cases hb : t.busy with
  | true =>
    rw [unlessBusy_busy (h.busy_eq.trans hb), unlessBusy_busy hb]
    exact h.raiseError .busy
  | false =>
    rw [unlessBusy_idle (h.busy_eq.trans hb), unlessBusy_idle hb]
    exact h'

theorem State.EqualButKey.busWrite {s t : State} (h : s.EqualButKey t) (r : Reg) (v : Word) :
    (busWrite r v s).EqualButKey (busWrite r v t) := by
  obtain ⟨K, rfl⟩ := equalButKey_iff.1 h
  cases r with
  | id => exact h
  | ctr _ => exact h
  | dout _ => exact h
  | pad _ => exact h
  | cmd => exact h.unlessBusy (equalButKey_iff.2 ⟨K, issueCommand_setKey v t K⟩)
  | key k => exact h.unlessBusy rfl
  | din k => exact h.unlessBusy rfl
  | status =>
    simp only [Machine.busWrite]
    split
    · rfl
    · exact h

theorem State.EqualButKey.respond {s t : State} (h : s.EqualButKey t) (r : Response) :
    (s.respond r).EqualButKey (t.respond r) := by
  obtain ⟨K, rfl⟩ := equalButKey_iff.1 h
  rfl

theorem State.EqualButKey.busAccess {s t : State} (h : s.EqualButKey t) (a : Access) :
    (busAccess a s).EqualButKey (busAccess a t) := by
  unfold Machine.busAccess
  cases a.target with
  | none => exact h.respond .error
  | some r =>
    cases a.kind with
    | read =>
      obtain ⟨K, rfl⟩ := equalButKey_iff.1 h
      simp only [performAccess, busRead_setKey]
      exact h.respond _
    | write v => exact (h.busWrite r v).respond .okay

/-! ### The engine and the step -/

/-- A command that needs no key completes alike with every key. -/
theorem State.EqualButKey.exec {s t : State} (h : s.EqualButKey t) {i : Instr} (hi : i.needsKey = false) :
    ∃ u v, exec i s = .next u ∧ exec i t = .next v ∧ u.EqualButKey v := by
  obtain ⟨K, rfl⟩ := equalButKey_iff.1 h
  cases i with
  | nop => exact ⟨_, _, rfl, rfl, rfl⟩
  | ctrClr => exact ⟨_, _, rfl, rfl, rfl⟩
  | keyClr => exact ⟨_, _, rfl, rfl, rfl⟩
  | md5 => exact ⟨_, _, rfl, rfl, rfl⟩
  | whiten n => exact ⟨_, _, rfl, rfl, rfl⟩
  | ksgen => cases hi
  | ctrxor n => cases hi
  | crypt n => cases hi

theorem State.EqualButKey.engineStep {s t : State} (h : s.EqualButKey t)
    (hp : ∀ i, s.pending = some i → i.needsKey = false) :
    ∃ u v, engineStep s = .next u ∧ engineStep t = .next v ∧ u.EqualButKey v := by
  cases hs : s.pending with
  | none =>
    have ht : t.pending = none := h.pending_eq ▸ hs
    exact ⟨s, t, by rw [Machine.engineStep, hs], by rw [Machine.engineStep, ht], h⟩
  | some i =>
    rw [engineStep_pending hs, engineStep_pending (h.pending_eq ▸ hs)]
    exact h.exec (hp i hs)

theorem State.EqualButKey.takeInput {s t : State} (h : s.EqualButKey t)
    (hp : ∀ i, s.pending = some i → i.needsKey = false) (x : Input) :
    ∃ u v, takeInput x s = .next u ∧ takeInput x t = .next v ∧ u.EqualButKey v := by
  cases x with
  | access a => exact ⟨_, _, rfl, rfl, h.busAccess a⟩
  | engine => exact h.engineStep hp
  | rst =>
    obtain ⟨K, rfl⟩ := equalButKey_iff.1 h
    exact ⟨_, _, rfl, rfl, rfl⟩

theorem State.EqualButKey.step {s t : State} (h : s.EqualButKey t)
    (hp : ∀ i, s.pending = some i → i.needsKey = false) :
    ∃ u v, step s = .next u ∧ step t = .next v ∧ u.EqualButKey v := by
  cases hs : s.inputs with
  | nil =>
    rw [step_no_input hs, step_no_input (h.inputs_eq ▸ hs)]
    exact h.engineStep hp
  | cons x rest =>
    rw [step_input hs, step_input (h.inputs_eq ▸ hs)]
    obtain ⟨K, rfl⟩ := equalButKey_iff.1 h
    have hrest : State.EqualButKey { t with key := K, inputs := rest } { t with inputs := rest } := rfl
    exact hrest.takeInput hp x

/-- Settles O47: the two next states are equal in all but KEY, and so show the same answers. -/
theorem keyIsNotObservable : Obligations.KeyIsNotObservable := by
  intro s t h hp
  obtain ⟨u, v, hu, hv, huv⟩ := h.step hp
  exact ⟨u, v, hu, hv, huv, huv.responses_eq⟩

end Sys2Proof.Machine
end

section
/-! The statements of 20_memory.md: the word packing (R47), reads and write-only locations (R48, R50), the writes that
do nothing or touch ERR at most (R51, R52, R56), and bus errors (R53, R54). -/

namespace Sys2Proof.Machine

/-! ### Word packing (R47) -/

/-- `le32` is its four bytes one after the other, the last one on top. -/
theorem le32_eq_append (a b c d : Byte) : le32 a b c d = d ++ (c ++ (b ++ a)) := by
  apply BitVec.eq_of_getLsbD_eq
  intro i hi
  rw [getLsbD_le32]
  simp only [BitVec.getLsbD_append]
  by_cases h8 : i < 8
  · simp [h8, show i < 16 by omega, show i < 24 by omega]
  by_cases h16 : i < 16
  · simp [h8, h16, show i < 24 by omega]
  by_cases h24 : i < 24
  · simp [h8, h16, h24]
  · simp [h8, h16, h24]

/-- Appending puts the first vector above the second one. -/
theorem toNat_append_add {m n : Nat} (x : BitVec m) (y : BitVec n) :
    (x ++ y).toNat = x.toNat * 2 ^ n + y.toNat := by
  rw [BitVec.toNat_append, ← Nat.shiftLeft_add_eq_or_of_lt y.isLt, Nat.shiftLeft_eq]

/-- `le32` as a number (00_scope.md R12). -/
theorem toNat_le32 (a b c d : Byte) :
    (le32 a b c d).toNat = a.toNat + b.toNat * 2 ^ 8 + c.toNat * 2 ^ 16 + d.toNat * 2 ^ 24 := by
  rw [le32_eq_append, toNat_append_add, toNat_append_add, toNat_append_add]
  omega

/-- Byte `4k + j` after word `k` is set is byte `j` of the word. -/
theorem getElem_setWord_same (X : Block) (k : Fin 4) (v : Word) (j : Nat) (hj : j < 4) :
    (setWord X k v)[4 * k.val + j] = wordByte v j := by
  simp [show (4 * k.val + j) / 4 = k.val by omega, show (4 * k.val + j) % 4 = j by omega]

/-! ### Reads and writes of one register -/

/-- No register shows what the outside world does next. -/
theorem busRead_setInputs (r : Reg) (s : State) (rest : List Input) :
    busRead r { s with inputs := rest } = busRead r s := by
  cases r <;> rfl

/-- The registers gated by BUSY, by name (R56). -/
theorem gated_eq_true_iff {r : Reg} : r.gated = true ↔ r = .cmd ∨ (∃ k, r = .key k) ∨ ∃ k, r = .din k := by
  cases r <;> simp [Reg.gated]

/-- The registers not gated by BUSY, by name (R51, R52). -/
theorem gated_eq_false_iff {r : Reg} :
    r.gated = false ↔ r = .id ∨ r = .status ∨ (∃ k, r = .ctr k) ∨ (∃ k, r = .dout k) ∨ ∃ k, r = .pad k := by
  cases r <;> simp [Reg.gated]

/-- While busy a write to a gated register records ERR_BUSY and does nothing else (R56). -/
theorem busWrite_gated_busy {r : Reg} {s : State} (hr : r.gated = true) (hb : s.busy = true) (v : Word) :
    busWrite r v s = s.raiseError .busy := by
  rcases gated_eq_true_iff.1 hr with rfl | ⟨k, rfl⟩ | ⟨k, rfl⟩ <;> exact unlessBusy_busy hb

/-- A write to an ungated register touches ERR at most, and that only for STATUS with bit 31 set; BUSY does not matter
(R51, R52). -/
theorem busWrite_ungated {r : Reg} (hr : r.gated = false) (v : Word) (s : State) :
    busWrite r v s = { s with err := if r = .status ∧ v.getLsbD 31 = true then 0#4 else s.err } := by
  rcases gated_eq_false_iff.1 hr with rfl | rfl | ⟨k, rfl⟩ | ⟨k, rfl⟩ | ⟨k, rfl⟩
  · rfl
  · cases h : v.getLsbD 31 with
    | true => simp only [busWrite, h]; rfl
    | false => simp only [busWrite, h]; rfl
  · rfl
  · rfl
  · rfl

/-! ### Answers of the bus -/

/-- A write leaves the answers given so far alone. -/
theorem busWrite_responses (r : Reg) (v : Word) (s : State) : (busWrite r v s).responses = s.responses := by
  rcases busWrite_cases r v s with e | e | ⟨-, e⟩ | ⟨-, -, e⟩ | ⟨-, k, -, e⟩ | ⟨-, k, -, e⟩ <;> rw [e]
  · rfl
  · rfl
  · rcases issueCommand_cases v s with e | ⟨c, e⟩ | ⟨i, -, -, -, e⟩ <;> rw [e] <;> rfl
  · rfl
  · rfl

/-- An access that reaches a register is answered with its value or with OKAY (R48, R49). -/
theorem performAccess_answers (k : AccessKind) (r : Reg) (s : State) :
    ∃ x, (performAccess k r s).responses = x :: s.responses ∧ x ≠ .error := by
  cases k with
  | read => exact ⟨.data (busRead r s), rfl, by simp⟩
  | write v => exact ⟨.okay, by simp [performAccess, busWrite_responses], by simp⟩

theorem busAccess_unlisted {a : Access} (h : a.listed = false) (s : State) : busAccess a s = s.respond .error := by
  have ht : a.target = none := by simpa [Access.listed] using h
  simp only [busAccess, ht]

theorem busAccess_listed {a : Access} (h : a.listed = true) (s : State) :
    ∃ x, (busAccess a s).responses = x :: s.responses ∧ x ≠ .error := by
  rcases busAccess_cases a s with ⟨ht, -⟩ | ⟨r, -, e⟩
  · simp [Access.listed, ht] at h
  · rw [e]
    exact performAccess_answers a.kind r s

/-- The host's step of an access that the bus answers with the error response is a fault (R54). -/
theorem hostAccess_error {a : Access} {s : State} (h : (busAccess a s).responses = .error :: s.responses) :
    hostAccess a s = .error (.fault (.busError a) (busAccess a s)) := by
  simp [hostAccess, feed_access, h]

/-- The host's step of an access that the bus answers otherwise gives the answer. -/
theorem hostAccess_ok {a : Access} {s : State} {x : Response} (h : (busAccess a s).responses = x :: s.responses)
    (hx : x ≠ .error) : hostAccess a s = .ok (x, busAccess a s) := by
  cases x with
  | data w => simp [hostAccess, feed_access, h]
  | okay => simp [hostAccess, feed_access, h]
  | error => exact absurd rfl hx

/-! ### Which accesses the window accepts (R46, R53, R54) -/

/-- The offsets of the listed registers: the multiples of 4 below 0x60 but for 0x0C. -/
theorem exists_offset_iff (off : Nat) : (∃ r : Reg, off = r.offset) ↔ off % 4 = 0 ∧ off ≠ 0x0C ∧ off < 0x60 := by
  have inside : ∀ r ∈ Reg.all, r.offset % 4 = 0 ∧ r.offset ≠ 0x0C ∧ r.offset < 0x60 := by decide
  have covered : ∀ n < 0x60, n % 4 = 0 → n ≠ 0x0C → ∃ r ∈ Reg.all, n = r.offset := by decide
  constructor
  · rintro ⟨r, rfl⟩
    exact inside r r.mem_all
  · rintro ⟨h4, hC, hlt⟩
    obtain ⟨r, -, hr⟩ := covered off hlt h4 hC
    exact ⟨r, hr⟩

theorem listed_iff (a : Access) :
    a.listed = true ↔ a.width = .bits32 ∧ a.off % 4 = 0 ∧ a.off ≠ 0x0C ∧ a.off < 0x60 := by
  simp only [Access.listed, Option.isSome_iff_exists, target_eq_some_iff, exists_and_left, exists_offset_iff]

/-! ### The obligations -/

/-- Settles O27: a word is its four bytes as a number, and a write sets the four bytes of its word. -/
theorem wordPacking : Obligations.WordPacking := by
  have written (s : State) (k : Fin 4) (v : Word) (j : Nat) (hj : j < 4) (hb : s.busy = false) :
      (busWrite (.din k) v s).din[4 * k.val + j] = v.extractLsb' (8 * j) 8 ∧
        (busWrite (.key k) v s).key[4 * k.val + j] = v.extractLsb' (8 * j) 8 := by
    rw [busWrite_din_idle k v hb, busWrite_key_idle k v hb]
    exact ⟨getElem_setWord_same s.din k v j hj, getElem_setWord_same s.key k v j hj⟩
  refine ⟨fun X k => toNat_le32 _ _ _ _, fun s k => ⟨rfl, rfl, rfl, rfl⟩, written, fun s hb => ?_⟩
  have byte (j : Nat) (hj : j < 4) := (written s 0 0x5069654B j hj hb).2
  exact ⟨byte 0 (by decide), byte 1 (by decide), byte 2 (by decide), byte 3 (by decide)⟩

/-- Settles O32: an access that reaches no register is only answered with the error response, one that reaches a
register is answered otherwise, and the host's step follows the answer. -/
theorem busErrorExactly : Obligations.BusErrorExactly := by
  refine ⟨fun s a rest hi => ?_, fun s a => ?_, fun a => ?_⟩
  · have hstep : step s = .next (busAccess a { s with inputs := rest }) := step_input hi
    refine ⟨fun h => by rw [hstep, busAccess_unlisted h]; rfl, fun h => ?_⟩
    obtain ⟨x, hx, hne⟩ := busAccess_listed h { s with inputs := rest }
    exact ⟨_, x, hstep, hx, hne⟩
  · refine ⟨fun h => ?_, fun h => ?_⟩
    · have e := busAccess_unlisted h s
      rw [hostAccess_error (by rw [e]; rfl), e]
      rfl
    · obtain ⟨x, hx, hne⟩ := busAccess_listed h s
      exact ⟨x, _, hostAccess_ok hx hne, hne⟩
  · rw [← Bool.not_eq_true, listed_iff]
    simp only [not_and_or, not_not, Nat.not_lt, ne_eq]

/-- Settles O21: the read answers, and no register shows the inputs. -/
theorem readsChangeNoState : Obligations.ReadsChangeNoState := by
  intro s r rest hi
  rw [step_read hi, busRead_setInputs]
  rfl

/-- Settles O22: CMD and KEYk by definition, bit 31 of STATUS as one of the bits from 12 on. -/
theorem writeOnlyLocationsReadZero : Obligations.WriteOnlyLocationsReadZero := by
  intro s
  obtain ⟨-, -, -, -, -, -, hzero⟩ := statusWordBits s
  exact ⟨rfl, fun _ => rfl, hzero 31 (by omega)⟩

/-- Settles O23: these registers are not gated by BUSY, and they are not STATUS. -/
theorem readOnlyWritesAreIgnored : Obligations.ReadOnlyWritesAreIgnored := by
  intro s r v rest hr hi
  have hstatus : r ≠ .status := by rintro rfl; simp at hr
  have hgated : r.gated = false := gated_eq_false_iff.2 (hr.imp_right .inr)
  rw [step_write hi, busWrite_ungated hgated]
  simp [hstatus, State.respond]

/-- Settles O24: STATUS is not gated by BUSY. -/
theorem statusWriteClearsErr : Obligations.StatusWriteClearsErr := by
  intro s v rest hi
  rw [step_write hi, busWrite_ungated rfl]
  simp [State.respond]

/-- Settles O25: a gated register records ERR_BUSY; what a write to an ungated one does to ERR does not depend on
BUSY. -/
theorem busyWritesAreIgnored : Obligations.BusyWritesAreIgnored := by
  intro s r v hb
  refine ⟨fun hr => busWrite_gated_busy (gated_eq_true_iff.2 hr) hb v, fun hr => ?_⟩
  have hgated : r.gated = false := gated_eq_false_iff.2 hr
  exact ⟨_, busWrite_ungated hgated v s, busWrite_ungated hgated v { s with busy := false }⟩

end Sys2Proof.Machine
end

section
/-! The statements of 30_encoding.md: the encoder and the decoder (R67 to R76), the 53 legal words (R72), the errors that
refused words raise, and the disassembly of a legal word read back (R77, R81). -/

namespace Sys2Proof.Machine

/-! ### The fields of a word (R67) -/

/-- A word is its three fields, RSVD on top and OP at the bottom. -/
theorem word_eq_fields (v : Word) : v = rsvdField v ++ lenField v ++ opField v := by
  apply BitVec.eq_of_getLsbD_eq
  intro i hi
  simp only [BitVec.getLsbD_append, rsvdField, lenField, opField, BitVec.getLsbD_extractLsb']
  by_cases h4 : i < 4
  · simp [h4]
  by_cases h9 : i < 9
  · simp [h4, show i - 4 < 5 by omega, show 4 + (i - 4) = i by omega]
  · simp [h4, show ¬ i - 4 < 5 by omega, show i - 4 - 5 < 23 by omega, show 9 + (i - 4 - 5) = i by omega]

/-- A word with RSVD = 0 and the OP and LEN of a command is the command's word. -/
theorem eq_encode_of_fields {v : Word} {i : Instr} (hr : rsvdField v = 0#23) (hop : opField v = i.op)
    (hlen : lenField v = i.len) : v = encode i := by
  rw [word_eq_fields v, hr, hop, hlen, encode]

/-- The fields of an encoded command, well-formed or not. -/
theorem fields_encode (i : Instr) :
    opField (encode i) = i.op ∧ lenField (encode i) = i.len ∧ rsvdField (encode i) = 0#23 := by
  have statement : Laws.EncodingFields.Statement i := by
    cases i with
    | nop => exact Laws.EncodingFields.nop
    | ctrClr => exact Laws.EncodingFields.ctrClr
    | keyClr => exact Laws.EncodingFields.keyClr
    | md5 => exact Laws.EncodingFields.md5
    | whiten len => exact Laws.EncodingFields.whiten len
    | ksgen => exact Laws.EncodingFields.ksgen
    | ctrxor len => exact Laws.EncodingFields.ctrxor len
    | crypt len => exact Laws.EncodingFields.crypt len
  obtain ⟨hop, hlen, hrsvd, -⟩ := statement
  exact ⟨hop, hlen, hrsvd⟩

/-! ### The decoder (R76) -/

theorem decodeSized_legal {f : BitVec 5 → Instr} {len : BitVec 5} (h : legalLen len = true) :
    decodeSized f len = .cmd (f len) := if_pos h

theorem decodeSized_badLen {f : BitVec 5 → Instr} {len : BitVec 5} (h : legalLen len = false) :
    decodeSized f len = .badLen := if_neg (by simp [h])

/-- The word of a legal command decodes to that command. -/
theorem decode_encode {i : Instr} (h : i.wellFormed = true) : decode (encode i) = .cmd i := by
  obtain ⟨hop, hlen, hrsvd⟩ := fields_encode i
  unfold decode
  rw [hop, hlen, hrsvd]
  cases i with
  | nop => rfl
  | ctrClr => rfl
  | keyClr => rfl
  | md5 => rfl
  | whiten len => exact decodeSized_legal h
  | ksgen => rfl
  | ctrxor len => exact decodeSized_legal h
  | crypt len => exact decodeSized_legal h

/-- The fields for which R76 answers Illegal. -/
def IllegalFields (v : Word) : Prop :=
  rsvdField v ≠ 0#23 ∨ 8 ≤ (opField v).toNat ∨ (opField v).toNat ∈ [0, 1, 2, 3, 5] ∧ lenField v ≠ 0#5

/-- The fields for which R76 answers BadLen. -/
def BadLenFields (v : Word) : Prop :=
  rsvdField v = 0#23 ∧ (opField v).toNat ∈ [4, 6, 7] ∧ ¬(1 ≤ (lenField v).toNat ∧ (lenField v).toNat ≤ 16)

/-- One of the three verdicts, with what the word then is. -/
inductive VerdictOf (v : Word) : Prop where
  | illegal (verdict : decode v = .illegal) (fields : IllegalFields v)
  | badLen (verdict : decode v = .badLen) (fields : BadLenFields v)
  | cmd (i : Instr) (verdict : decode v = .cmd i) (wellFormed : i.wellFormed = true) (word : v = encode i)

/-- The reserved OPs are Illegal, whatever the other fields hold. -/
theorem decode_reserved {v : Word} (h : 8 ≤ (opField v).toNat) : decode v = .illegal := by
  obtain ⟨n, hn⟩ := Nat.exists_eq_add_of_le' h
  simp [decode, hn]

/-- The verdict on the OP of a command without operand. -/
theorem verdictOf_fixed {v : Word} {i : Instr} (hd : decode v = decodeFixed i (lenField v)) (hr : rsvdField v = 0#23)
    (hop : opField v = i.op) (hmem : i.op.toNat ∈ [0, 1, 2, 3, 5]) (hlen : i.len = 0#5) (hwf : i.wellFormed = true) :
    VerdictOf v := by
  by_cases hl : lenField v = 0#5
  · exact .cmd i (hd.trans (if_neg (not_not.2 hl))) hwf (eq_encode_of_fields hr hop (hl.trans hlen.symm))
  · exact .illegal (hd.trans (if_pos hl)) (.inr (.inr ⟨hop ▸ hmem, hl⟩))

/-- The verdict on the OP of a length-using command. -/
theorem verdictOf_sized {v : Word} {f : BitVec 5 → Instr} (hd : decode v = decodeSized f (lenField v))
    (hr : rsvdField v = 0#23) (hop : opField v = (f (lenField v)).op) (hmem : (opField v).toNat ∈ [4, 6, 7])
    (hlen : lenField v = (f (lenField v)).len) (hwf : (f (lenField v)).wellFormed = legalLen (lenField v)) :
    VerdictOf v := by
  cases hl : legalLen (lenField v) with
  | true => exact .cmd _ (hd.trans (decodeSized_legal hl)) (hwf.trans hl) (eq_encode_of_fields hr hop hlen)
  | false => exact .badLen (hd.trans (decodeSized_badLen hl)) ⟨hr, hmem, of_decide_eq_false hl⟩

/-- Every word gets one of the three verdicts, by its fields. -/
theorem verdictOf (v : Word) : VerdictOf v := by
  have ops : ∀ op : BitVec 4, op = 0 ∨ op = 1 ∨ op = 2 ∨ op = 3 ∨ op = 4 ∨ op = 5 ∨ op = 6 ∨ op = 7 ∨ 8 ≤ op.toNat := by
    decide
  by_cases hr : rsvdField v = 0#23
  · rcases ops (opField v) with h | h | h | h | h | h | h | h | h
    · exact verdictOf_fixed (i := .nop) (by simp [decode, hr, h]) hr h (by decide) rfl rfl
    · exact verdictOf_fixed (i := .ctrClr) (by simp [decode, hr, h]) hr h (by decide) rfl rfl
    · exact verdictOf_fixed (i := .keyClr) (by simp [decode, hr, h]) hr h (by decide) rfl rfl
    · exact verdictOf_fixed (i := .md5) (by simp [decode, hr, h]) hr h (by decide) rfl rfl
    · exact verdictOf_sized (f := .whiten) (by simp [decode, hr, h]) hr h (by simp [h]) rfl rfl
    · exact verdictOf_fixed (i := .ksgen) (by simp [decode, hr, h]) hr h (by decide) rfl rfl
    · exact verdictOf_sized (f := .ctrxor) (by simp [decode, hr, h]) hr h (by simp [h]) rfl rfl
    · exact verdictOf_sized (f := .crypt) (by simp [decode, hr, h]) hr h (by simp [h]) rfl rfl
    · exact .illegal (decode_reserved h) (.inr (.inl h))
  · exact .illegal (if_pos hr) (.inl hr)

/-- A word that decodes to a command is the word of that command, which is legal. -/
theorem eq_encode_of_decode {v : Word} {i : Instr} (h : decode v = .cmd i) : i.wellFormed = true ∧ encode i = v := by
  cases verdictOf v with
  | illegal hd _ => simp [hd] at h
  | badLen hd _ => simp [hd] at h
  | cmd j hd hwf hv =>
    obtain rfl : j = i := by simpa [hd] using h
    exact ⟨hwf, hv.symm⟩

/-- No word of a legal command has the fields of an Illegal one: a command without operand has LEN = 0. -/
theorem not_illegalFields_encode {i : Instr} (h : i.wellFormed = true) : ¬ IllegalFields (encode i) := by
  obtain ⟨hop, hlen, hrsvd⟩ := fields_encode i
  unfold IllegalFields
  rw [hop, hlen, hrsvd]
  cases i <;> simp [Instr.op, Instr.len]

/-- No word of a legal command has the fields of a BadLen one: a length-using command has a legal LEN. -/
theorem not_badLenFields_encode {i : Instr} (h : i.wellFormed = true) : ¬ BadLenFields (encode i) := by
  obtain ⟨hop, hlen, hrsvd⟩ := fields_encode i
  unfold BadLenFields
  rw [hop, hlen, hrsvd]
  cases i <;> simp_all [Instr.op, Instr.len, Instr.wellFormed, legalLen]

/-- No word has the fields of both refusals. -/
theorem IllegalFields.not_badLen {v : Word} (hi : IllegalFields v) : ¬ BadLenFields v := by
  rintro ⟨hr, hmem, -⟩
  rcases hi with h | h | ⟨h, -⟩
  · exact h hr
  · simp only [List.mem_cons, List.not_mem_nil, or_false] at hmem
    omega
  · simp only [List.mem_cons, List.not_mem_nil, or_false] at h hmem
    omega

theorem decode_eq_illegal_iff (v : Word) : decode v = .illegal ↔ IllegalFields v := by
  cases verdictOf v with
  | illegal hd hf => exact iff_of_true hd hf
  | badLen hd hf => exact iff_of_false (by simp [hd]) fun hi => hi.not_badLen hf
  | cmd i hd hwf hv => exact iff_of_false (by simp [hd]) (hv ▸ not_illegalFields_encode hwf)

theorem decode_eq_badLen_iff (v : Word) : decode v = .badLen ↔ BadLenFields v := by
  cases verdictOf v with
  | illegal hd hf => exact iff_of_false (by simp [hd]) hf.not_badLen
  | badLen hd hf => exact iff_of_true hd hf
  | cmd i hd hwf hv => exact iff_of_false (by simp [hd]) (hv ▸ not_badLenFields_encode hwf)

/-! ### The CMD write of a refused word (R76, 60_exceptions.md R147) -/

theorem issueCommand_illegal {v : Word} {s : State} (he : s.err = 0#4) (hd : decode v = .illegal) :
    issueCommand v s = { s with done := false, err := 1#4 } := by
  simp [issueCommand, he, hd, State.clearDone, State.raiseError, CmdError.code]

theorem issueCommand_badLen {v : Word} {s : State} (he : s.err = 0#4) (hd : decode v = .badLen) :
    issueCommand v s = { s with done := false, err := 3#4 } := by
  simp [issueCommand, he, hd, State.clearDone, State.raiseError, CmdError.code]

theorem busWrite_cmd_idle {s : State} (v : Word) (h : s.busy = false) : busWrite .cmd v s = issueCommand v s :=
  unlessBusy_idle h

/-! ### The legal words (R72) -/

/-- The LENs 1..16. -/
def legalLens : List (BitVec 5) := (List.range' 1 16).map (BitVec.ofNat 5)

theorem mem_legalLens_iff : ∀ len : BitVec 5, len ∈ legalLens ↔ legalLen len = true := by decide

/-- The legal commands, in the order of R72. -/
def legalInstrs : List Instr :=
  [.nop, .ctrClr, .keyClr, .md5, .ksgen] ++ legalLens.map .whiten ++ legalLens.map .ctrxor ++ legalLens.map .crypt

theorem mem_legalInstrs_iff (i : Instr) : i ∈ legalInstrs ↔ i.wellFormed = true := by
  cases i <;> simp [legalInstrs, Instr.wellFormed, mem_legalLens_iff]

/-- The listed words are the words of the legal commands. -/
theorem legalWords_eq_map_encode : legalWords = legalInstrs.map encode := by decide

theorem mem_legalWords_iff (v : Word) : v ∈ legalWords ↔ ∃ i : Instr, i.wellFormed = true ∧ encode i = v := by
  simp [legalWords_eq_map_encode, mem_legalInstrs_iff]

theorem nodup_legalInstrs : legalInstrs.Nodup := by
  decide

/-- No word is listed twice: a word has one decoding. -/
theorem nodup_legalWords : legalWords.Nodup := by
  rw [legalWords_eq_map_encode]
  refine nodup_legalInstrs.map_on fun i hi j hj hij => ?_
  have hdecode := decode_encode ((mem_legalInstrs_iff i).1 hi)
  rw [hij, decode_encode ((mem_legalInstrs_iff j).1 hj)] at hdecode
  simpa using hdecode.symm

/-- The words of the length-using commands as R72 writes them. -/
theorem encode_sized : ∀ n < 17,
    encode (.whiten (BitVec.ofNat 5 n)) = 0x00000004 ||| BitVec.ofNat 32 n <<< 4 ∧
      encode (.ctrxor (BitVec.ofNat 5 n)) = 0x00000006 ||| BitVec.ofNat 32 n <<< 4 ∧
      encode (.crypt (BitVec.ofNat 5 n)) = 0x00000007 ||| BitVec.ofNat 32 n <<< 4 := by
  decide

theorem legalLen_ofNat {n : Nat} (h1 : 1 ≤ n) (h16 : n ≤ 16) : legalLen (BitVec.ofNat 5 n) = true := by
  simp [legalLen, Nat.mod_eq_of_lt (show n < 32 by omega), h1, h16]

/-- The words that decode to a command are the listed ones. -/
theorem exists_decode_iff (v : Word) : (∃ i, decode v = .cmd i) ↔ v ∈ legalWords := by
  rw [mem_legalWords_iff]
  constructor
  · rintro ⟨i, hd⟩
    exact ⟨i, eq_encode_of_decode hd⟩
  · rintro ⟨i, hwf, rfl⟩
    exact ⟨i, decode_encode hwf⟩

/-! ### A word put in front of the engine (log entry 9) -/

theorem tableWord_toNat (v : Word) : tableWord 32 v.toNat = v := by
  simp [tableWord, Nat.mod_eq_of_lt v.isLt]

/-- The step of a state with a legal word placed is the command's completion on the state of its acceptance. -/
theorem step_placeWord {v : Word} {i : Instr} (h : decode v = .cmd i) (s : State) :
    step (placeWord v s) = exec i (s.accept i) := by
  have hplaced : placeWord v s = { s.accept i with inputs := .engine :: s.inputs } := by simp only [placeWord, h]
  rw [hplaced, step_input rfl]
  exact engineStep_pending (s := s.accept i) rfl

/-! ### The tokens of a line (log entry 13) -/

/-- A character that ends no token and no line and begins no comment. -/
def inToken (c : Char) : Bool := !isGap c && c != ';' && c != '\n'

theorem inToken_iff {c : Char} : inToken c = true ↔ isGap c = false ∧ c ≠ ';' ∧ c ≠ '\n' := by
  simp [inToken, and_assoc]

/-- A text without line end is one line. -/
theorem linesFrom_of_no_newline {cs : List Char} (h : ∀ c ∈ cs, c ≠ '\n') (cur : List Char) :
    linesFrom cur cs = [cur.reverse ++ cs] := by
  induction cs generalizing cur with
  | nil => simp [linesFrom]
  | cons c cs ih =>
    obtain ⟨hc, hcs⟩ := List.forall_mem_cons.1 h
    simp [linesFrom, hc, ih hcs]

/-- A text without `;` holds no comment. -/
theorem uncomment_of_no_semicolon {cs : List Char} (h : ∀ c ∈ cs, c ≠ ';') : uncomment cs = cs :=
  List.takeWhile_eq_self_iff.2 (by simpa using h)

/-- Characters without gap go into the token begun so far. -/
theorem tokensFrom_append {t : List Char} (h : ∀ c ∈ t, isGap c = false) (cur rest : List Char) :
    tokensFrom cur (t ++ rest) = tokensFrom (t.reverse ++ cur) rest := by
  induction t generalizing cur with
  | nil => rfl
  | cons c t ih =>
    obtain ⟨hc, ht⟩ := List.forall_mem_cons.1 h
    simp [tokensFrom, hc, ih ht]

/-- The last token of a line. -/
theorem tokensFrom_last {t : List Char} (hne : t ≠ []) (h : ∀ c ∈ t, isGap c = false) : tokensFrom [] t = [t] := by
  rw [← List.append_nil t, tokensFrom_append h]
  simp [tokensFrom, hne]

/-- A token, then a blank. -/
theorem tokensFrom_blank {t : List Char} (hne : t ≠ []) (h : ∀ c ∈ t, isGap c = false) (rest : List Char) :
    tokensFrom [] (t ++ ' ' :: rest) = t :: tokensFrom [] rest := by
  rw [tokensFrom_append h]
  simp [tokensFrom, hne, show isGap ' ' = true from rfl]

/-! ### Decimal numbers (R78) -/

/-- The transcriber reads decimal digits as the library does. -/
theorem readDigits_decimal {cs : List Char} (h : ∀ c ∈ cs, c.isDigit = true) (n : Nat) :
    readDigits 10 decValue n cs = some (Nat.ofDigitChars 10 cs n) := by
  induction cs generalizing n with
  | nil => rfl
  | cons c cs ih =>
    obtain ⟨hc, hcs⟩ := List.forall_mem_cons.1 h
    have hvalue : decValue c = some (c.toNat - '0'.toNat) := if_pos (by simpa [Char.isDigit, Char.le_def] using hc)
    simp [readDigits, hvalue, ih hcs, Nat.ofDigitChars_cons]

/-- A decimal number printed is read back. -/
theorem readDigits_toDigits (n : Nat) : readDigits 10 decValue 0 (Nat.toDigits 10 n) = some n := by
  rw [readDigits_decimal fun c => Nat.isDigit_of_mem_toDigits (by decide) (by decide), Nat.ofDigitChars_ten_toDigits]

theorem readLen_toDigits {len : BitVec 5} (h : legalLen len = true) : readLen (Nat.toDigits 10 len.toNat) = some len := by
  have hbounds : 1 ≤ len.toNat ∧ len.toNat ≤ 16 := of_decide_eq_true h
  simp [readLen, readDigits_toDigits, hbounds]

/-! ### The text of a command (R77, R81) -/

theorem inToken_of_isDigit {c : Char} (h : c.isDigit = true) : inToken c = true := by
  have hne (d : Char) (hd : d.isDigit = false) : c ≠ d := by
    rintro rfl
    simp [h] at hd
  simp [inToken, isGap, hne ' ' rfl, hne ',' rfl, hne '\t' rfl, hne '\r' rfl, hne ';' rfl, hne '\n' rfl]

theorem inToken_toDigits {n : Nat} {c : Char} (h : c ∈ Nat.toDigits 10 n) : inToken c = true :=
  inToken_of_isDigit (Nat.isDigit_of_mem_toDigits (by decide) (by decide) h)

theorem inToken_mnemonic (i : Instr) : ∀ c ∈ i.mnemonic.toList, inToken c = true := by
  cases i <;> simp [Instr.mnemonic, inToken, isGap]

theorem labelName_mnemonic (i : Instr) : labelName i.mnemonic.toList = none := by
  cases i <;> simp [Instr.mnemonic, labelName]

theorem mnemonic_toList_ne_nil (i : Instr) : i.mnemonic.toList ≠ [] := by
  cases i <;> simp [Instr.mnemonic]

/-- No mnemonic of a command is one of R78 or R79. -/
theorem readStmt_mnemonic (i : Instr) (args : List (List Char)) :
    readStmt i.mnemonic args = readCommand i.mnemonic args := by
  cases i <;> simp [readStmt, Instr.mnemonic]

/-- The operand of a command as the disassembler prints it: LEN in decimal for the length-using commands. -/
def operandTokens : Instr → List (List Char)
  | .nop => []
  | .ctrClr => []
  | .keyClr => []
  | .md5 => []
  | .whiten len => [Nat.toDigits 10 len.toNat]
  | .ksgen => []
  | .ctrxor len => [Nat.toDigits 10 len.toNat]
  | .crypt len => [Nat.toDigits 10 len.toNat]

theorem toList_append_operand (m : String) (n : Nat) :
    (m ++ " " ++ toString n).toList = m.toList ++ ' ' :: Nat.toDigits 10 n := by
  simp [Nat.toString_eq_repr]

/-- The mnemonic, and after it a blank and the operand where there is one. -/
theorem render_toList (i : Instr) :
    (Instr.render i).toList = i.mnemonic.toList ∧ operandTokens i = [] ∨
      ∃ n : Nat, (Instr.render i).toList = i.mnemonic.toList ++ ' ' :: Nat.toDigits 10 n ∧
        operandTokens i = [Nat.toDigits 10 n] := by
  cases i with
  | nop => exact .inl ⟨rfl, rfl⟩
  | ctrClr => exact .inl ⟨rfl, rfl⟩
  | keyClr => exact .inl ⟨rfl, rfl⟩
  | md5 => exact .inl ⟨rfl, rfl⟩
  | whiten len => exact .inr ⟨len.toNat, toList_append_operand _ _, rfl⟩
  | ksgen => exact .inl ⟨rfl, rfl⟩
  | ctrxor len => exact .inr ⟨len.toNat, toList_append_operand _ _, rfl⟩
  | crypt len => exact .inr ⟨len.toNat, toList_append_operand _ _, rfl⟩

/-- The text is made of the characters of tokens and the blank. -/
theorem mem_render {i : Instr} {c : Char} (h : c ∈ (Instr.render i).toList) : inToken c = true ∨ c = ' ' := by
  rcases render_toList i with ⟨ht, -⟩ | ⟨n, ht, -⟩
  · exact .inl (inToken_mnemonic i c (ht ▸ h))
  · rw [ht, List.mem_append, List.mem_cons] at h
    rcases h with h | h | h
    · exact .inl (inToken_mnemonic i c h)
    · exact .inr h
    · exact .inl (inToken_toDigits h)

/-- The text is one line without a comment. -/
theorem ne_of_mem_render {i : Instr} {c : Char} (h : c ∈ (Instr.render i).toList) : c ≠ ';' ∧ c ≠ '\n' := by
  rcases mem_render h with hc | rfl
  · exact (inToken_iff.1 hc).2
  · decide

/-- The tokens of the text are the mnemonic and the operand. -/
theorem tokens_render (i : Instr) : tokens (Instr.render i).toList = i.mnemonic.toList :: operandTokens i := by
  have hm : ∀ c ∈ i.mnemonic.toList, isGap c = false := fun c hc => (inToken_iff.1 (inToken_mnemonic i c hc)).1
  rw [tokens, uncomment_of_no_semicolon fun c hc => (ne_of_mem_render hc).1]
  rcases render_toList i with ⟨ht, ho⟩ | ⟨n, ht, ho⟩ <;> rw [ht, ho]
  · exact tokensFrom_last (mnemonic_toList_ne_nil i) hm
  · rw [tokensFrom_blank (mnemonic_toList_ne_nil i) hm,
      tokensFrom_last Nat.toDigits_ne_nil fun c hc => (inToken_iff.1 (inToken_toDigits hc)).1]

theorem readCommand_sized {m : String} {f : BitVec 5 → Instr} {len : BitVec 5} (hp : plainCommand m = none)
    (hs : sizedCommand m = some f) (h : legalLen len = true) :
    readCommand m [Nat.toDigits 10 len.toNat] = .ok (.command (f len)) := by
  simp [readCommand, hp, hs, readLen_toDigits h]

theorem readCommand_mnemonic {i : Instr} (h : i.wellFormed = true) :
    readCommand i.mnemonic (operandTokens i) = .ok (.command i) := by
  cases i with
  | nop => rfl
  | ctrClr => rfl
  | keyClr => rfl
  | md5 => rfl
  | whiten len => exact readCommand_sized rfl rfl h
  | ksgen => rfl
  | ctrxor len => exact readCommand_sized rfl rfl h
  | crypt len => exact readCommand_sized rfl rfl h

/-- One legal command is a well-formed program (R82). -/
theorem checkProgram_command {i : Instr} (h : i.wellFormed = true) (n : Nat) : checkProgram [(n, .command i)] = none := by
  simp [checkProgram, firstBroken, AsmStmt.broken, h]

/-- The line of a legal command's text is read as that command. -/
theorem readLine_render {i : Instr} (h : i.wellFormed = true) :
    readLine (tokens (Instr.render i).toList) = .ok [.command i] := by
  rw [tokens_render]
  simp only [readLine, labelName_mnemonic, String.ofList_toList, readStmt_mnemonic, readCommand_mnemonic h]
  rfl

/-- The printed text of a legal command is read back as that command. -/
theorem transcribe_render {i : Instr} (h : i.wellFormed = true) :
    transcribe (Instr.render i) = .ok [(1, .command i)] := by
  have hlines : readLines 1 (linesFrom [] (Instr.render i).toList) = .ok [(1, .command i)] := by
    rw [linesFrom_of_no_newline fun c hc => (ne_of_mem_render hc).2]
    simp only [List.reverse_nil, List.nil_append, readLines, readLine_render h]
    rfl
  simp only [transcribe, hlines, checkProgram_command h]

theorem disassemble_encode {i : Instr} (h : i.wellFormed = true) : disassemble (encode i) = Instr.render i := by
  simp only [disassemble, decode_encode h]

/-! ### The obligations -/

/-- Settles O1: the fields of an encoded command are its own, and every verdict Cmd names the command whose fields the
word has. -/
theorem decodeAndEncodeAgree : Obligations.DecodeAndEncodeAgree :=
  ⟨fun _ => decode_encode, fun _ _ => eq_encode_of_decode⟩

/-- Settles O2: the two refusals by their fields, a command by the fields of its word, and the errors as the CMD write
of a refused word. -/
theorem decoderVerdicts : Obligations.DecoderVerdicts := by
  intro v
  refine ⟨decode_eq_illegal_iff v, decode_eq_badLen_iff v, fun i hd => ?_, fun s he hd => ?_, fun s he hd => ?_⟩
  · obtain ⟨-, rfl⟩ := eq_encode_of_decode hd
    obtain ⟨hop, hlen, -⟩ := fields_encode i
    exact ⟨hop.symm, hlen.symm⟩
  · rw [issueCommand_illegal he hd]
  · rw [issueCommand_badLen he hd]

/-- Settles O4: the listed words are those of the legal commands, and a word that is none of them gets one of the two
refusals. -/
theorem legalWordsAreThe53 : Obligations.LegalWordsAreThe53 := by
  refine ⟨rfl, nodup_legalWords, exists_decode_iff, ⟨?_, ?_, ?_, ?_, ?_⟩, fun n h1 h16 => ?_, fun s v hb he hv => ?_⟩
  · exact decode_encode (i := .nop) rfl
  · exact decode_encode (i := .ctrClr) rfl
  · exact decode_encode (i := .keyClr) rfl
  · exact decode_encode (i := .md5) rfl
  · exact decode_encode (i := .ksgen) rfl
  · obtain ⟨hwhiten, hctrxor, hcrypt⟩ := encode_sized n (by omega)
    have hlen := legalLen_ofNat h1 h16
    rw [← hwhiten, ← hctrxor, ← hcrypt]
    exact ⟨decode_encode hlen, decode_encode hlen, decode_encode hlen⟩
  · rw [busWrite_cmd_idle v hb]
    cases verdictOf v with
    | illegal hd _ =>
      rw [issueCommand_illegal he hd]
      exact ⟨.inl ⟨rfl, hd⟩, rfl, hb⟩
    | badLen hd _ =>
      rw [issueCommand_badLen he hd]
      exact ⟨.inr ⟨rfl, hd⟩, rfl, hb⟩
    | cmd i hd _ _ => exact absurd ((exists_decode_iff v).1 ⟨i, hd⟩) hv

/-- Settles O57: the word of a legal command prints as its mnemonic and operand, which are the two tokens the
transcriber reads. -/
theorem disassemblyReadsBack : Obligations.DisassemblyReadsBack := by
  intro i hwf
  refine ⟨?_, rfl⟩
  rw [disassemble_encode hwf, transcribe_render hwf]

/-- Settles O3: the eight commands as words of the encoder, the five refusals by their fields. -/
theorem sampleWordsDecode : Obligations.SampleWordsDecode := by
  refine ⟨decode_encode (i := .nop) rfl, decode_encode (i := .ctrClr) rfl, decode_encode (i := .keyClr) rfl,
    decode_encode (i := .md5) rfl, decode_encode (i := .whiten 5) rfl, decode_encode (i := .ksgen) rfl,
    decode_encode (i := .ctrxor 1) rfl, decode_encode (i := .crypt 16) rfl, ?_⟩
  decide

/-- Settles O6: the command of the placed word is pending, and the engine has the next turn. -/
theorem fetchedWordRuns : Obligations.FetchedWordRuns := by
  intro s v i hd
  constructor
  · rw [decodeTableWord, tableWord_toNat, hd, Verdict.toInstr?]
  · rw [State.withFetchWord, tableWord_toNat, step_placeWord hd]
    rfl

/-- Settles O18: RSVD is the first of the decoder's checks. -/
theorem reservedBitsAreIllegal : Obligations.ReservedBitsAreIllegal := by
  intro s v hr
  have hd : decode v = .illegal := (decode_eq_illegal_iff v).2 (.inl hr)
  refine ⟨hd, fun hb he => ?_⟩
  rw [busWrite_cmd_idle v hb, issueCommand_illegal he hd]

end Sys2Proof.Machine
end

section
/-! The statements of 41_md5_pad.md: the completion of MD5 (R83) and the digest read through PAD0..PAD3 (R86, R92). -/

namespace Sys2Proof.Machine

/-- The words of a block packed from four words are those words (20_memory.md R47). -/
@[simp] theorem wordOf_blockOfWords (w : Fin 4 → Word) (k : Fin 4) : wordOf (blockOfWords w) k = w k := by
  have hdiv (j : Nat) (hj : j < 4) : (4 * k.val + j) / 4 = k.val := by omega
  calc wordOf (blockOfWords w) k
      = le32 (wordByte (w k) 0) (wordByte (w k) 1) (wordByte (w k) 2) (wordByte (w k) 3) := by
        simp [wordOf, hdiv]
    _ = w k := le32_wordByte (w k)

/-- The data updates of a command leave ERR, the inputs and the answers alone; `finish` then makes the state a completed
one (70_reset_and_hazards.md R175). -/
theorem completedFrom_finish {s t : State} (he : t.err = s.err := by simp) (hi : t.inputs = s.inputs := by simp)
    (hr : t.responses = s.responses := by simp) : s.CompletedFrom t.finish where
  pending := rfl
  busy := rfl
  done := rfl
  err := he
  inputs := hi
  responses := hr

/-- The words of the digest: each working variable plus its initial value, with the constants of R86 written out
(R92). -/
theorem wordOf_md5Digest (c : Md5Chain) :
    wordOf (md5Digest c) 0 = c.a + 0x67452301 ∧ wordOf (md5Digest c) 1 = c.b + 0xEFCDAB89 ∧
      wordOf (md5Digest c) 2 = c.c + 0x98BADCFE ∧ wordOf (md5Digest c) 3 = c.d + 0x10325476 :=
  ⟨wordOf_blockOfWords _ 0, wordOf_blockOfWords _ 1, wordOf_blockOfWords _ 2, wordOf_blockOfWords _ 3⟩

/-- Once a pad is set and the command finished, PADk reads word `k` of that pad (R83, 20_memory.md R48). -/
theorem busRead_pad_setPad_finish (s : State) (X : Block) (k : Fin 4) :
    busRead (.pad k) (s.setPad X).finish = wordOf X k := rfl

/-! ### The obligations -/

/-- Settles O11: the host reads the words of the digest that MD5 set as the pad. -/
theorem md5PadWordsReadTheDigest : Obligations.Md5PadWordsReadTheDigest := by
  intro s
  refine ⟨_, exec_md5 s, ?_⟩
  simp only [busRead_pad_setPad_finish, md5_16]
  exact wordOf_md5Digest (md5Steps s.din 64)

/-- Settles O10: MD5 is `setPad` and then `finish`, and neither touches another register. -/
theorem md5Completes : Obligations.Md5Completes := by
  intro s
  exact ⟨_, exec_md5 s, completedFrom_finish, rfl, rfl, rfl, rfl, rfl, rfl, rfl, rfl⟩

end Sys2Proof.Machine
end

section
/-! The statements of 42_whitener.md: the completion of WHITEN (R101, R103), WHITEN undone by a second WHITEN (R102),
and the bit flips that no command of this shape detects (R105). -/

namespace Sys2Proof.Machine

/-! ### XOR of blocks -/

theorem xorBlock_assoc (X Y Z : Block) : xorBlock (xorBlock X Y) Z = xorBlock X (xorBlock Y Z) :=
  block_ext fun i hi => by simp [BitVec.xor_assoc]

/-- The same mask applied twice to the first `n` bytes cancels, and the zeros after them stay (R102). -/
theorem firstBytes_xorBlock_twice (n : BitVec 5) (X M : Block) :
    firstBytes n (xorBlock (firstBytes n (xorBlock X M)) M) = firstBytes n X :=
  block_ext fun i hi => by
    by_cases hn : i < n.toNat
    · simp [hn]
    · simp [hn]

/-! ### One flipped bit -/

/-- Bit `m` of `1 <<< j` in a byte. -/
theorem getLsbD_one_shiftLeft {j m : Nat} (hm : m < 8) : (1#8 <<< j).getLsbD m = decide (m = j) := by
  rw [← BitVec.twoPow_eq, BitVec.getLsbD_twoPow]
  by_cases h : j = m
  · simp [h, hm]
  · simp [h, Ne.symm h]

/-- XOR of `1 <<< j` into byte `i` of a block flips bit `j` of that byte and no other bit of the block. -/
theorem getLsbD_set_flip (X : Block) (i k : Fin 16) {j m : Nat} (hm : m < 8) :
    (X.set i (X[i] ^^^ 1#8 <<< j))[k].getLsbD m = (X[k].getLsbD m ^^ decide (k = i ∧ m = j)) := by
  by_cases hk : k = i
  · subst hk
    simp [getLsbD_one_shiftLeft hm]
  · have hne : i.val ≠ k.val := fun h => hk (Fin.ext h.symm)
    simp [hk, Vector.getElem_set_ne _ _ hne]

/-- A bit flipped in byte `i` of `X`, `i < n`, is flipped in the first `n` bytes of X XOR M, and no other bit is
(R105). -/
theorem getLsbD_firstBytes_xorBlock_flip (n : BitVec 5) (X M : Block) (i k : Fin 16) {j m : Nat} (hi : i.val < n.toNat)
    (hm : m < 8) :
    (firstBytes n (xorBlock (X.set i (X[i] ^^^ 1#8 <<< j)) M))[k].getLsbD m =
      ((firstBytes n (xorBlock X M))[k].getLsbD m ^^ decide (k = i ∧ m = j)) := by
  by_cases hk : k.val < n.toNat
  · have hflip := getLsbD_set_flip X i k (j := j) hm
    simp only [Fin.getElem_fin] at hflip ⊢
    simp only [getElem_firstBytes, getElem_xorBlock, if_pos hk, BitVec.getLsbD_xor, hflip, Bool.xor_right_comm]
  · have hne : k ≠ i := fun h => hk (h ▸ hi)
    simp [hk, hne]

/-! ### The commands that mask DIN -/

/-- WHITEN, CTRXOR and CRYPT are one operation: DOUT is the first `n` bytes of DIN XOR a mask that does not depend on
DIN (R101, R121, R134). -/
theorem exec_masks_din {c : Instr} {n : BitVec 5} (hc : c = .whiten n ∨ c = .ctrxor n ∨ c = .crypt n) (s : State) :
    ∃ M : Block, ∀ X : Block, ∃ t, exec c { s with din := X } = .next t ∧ t.dout = firstBytes n (xorBlock X M) := by
  obtain rfl | rfl | rfl := hc
  · exact ⟨s.pad, fun X => ⟨_, exec_whiten n _, rfl⟩⟩
  · exact ⟨s.keystream, fun X => ⟨_, exec_ctrxor n _, rfl⟩⟩
  · exact ⟨xorBlock s.keystream s.pad, fun X => ⟨_, exec_crypt n _, congrArg (firstBytes n) (xorBlock_assoc _ _ _)⟩⟩

/-! ### The obligations -/

/-- Settles O50: the second WHITEN reads the same PAD, so the two masks cancel on the first n bytes. -/
theorem whitenIsAnInvolution : Obligations.WhitenIsAnInvolution := by
  intro s t n _ _ ht
  obtain rfl := Host.Outcome.next.inj ((exec_whiten n s).symm.trans ht)
  refine ⟨_, exec_whiten n _, fun i => ?_⟩
  simp [firstBytes_xorBlock_twice]

/-- Settles O54: the mask is the same for both values of DIN, so the flipped bit passes through the XOR. -/
theorem bitFlipsPropagate : Obligations.BitFlipsPropagate := by
  intro s n c i j hc hi _
  obtain ⟨M, hM⟩ := exec_masks_din hc s
  obtain ⟨t, ht, htd⟩ := hM s.din
  obtain ⟨u, hu, hud⟩ := hM (s.din.set i (s.din[i] ^^^ 1#8 <<< j))
  refine ⟨t, u, ht, hu, fun k m hm => ?_⟩
  rw [hud, htd, getLsbD_firstBytes_xorBlock_flip n s.din M i k hi hm]
  by_cases hbit : k = i ∧ m = j
  · simp [hbit]
  · simp [hbit]

/-- Settles O12: WHITEN is `setDout` and then `finish`; DOUT is read byte by byte, and no other register is touched. -/
theorem whitenCompletes : Obligations.WhitenCompletes := by
  intro s n
  refine ⟨_, exec_whiten n s, completedFrom_finish, fun i => ?_, ?_⟩
  · simp
  · simp

end Sys2Proof.Machine
end

section
/-! The statements of 43_aes_ctr.md: KSGEN and CTRXOR at completion (R120, R121), their relation (R126), the stream
commands undone by themselves (R123), and the counter that locks once it has wrapped (R116). -/

namespace Sys2Proof.Machine

/-! ### The keystream -/

/-- R119 for the current counter. -/
theorem State.keystream_eq (s : State) : s.keystream = aes128 s.key (be128 s.ctr) := rfl

theorem xorBlock_zeroBlock_left (X : Block) : xorBlock zeroBlock X = X :=
  block_ext fun i hi => by simp

/-! ### The counter's advance (R116) -/

/-- The shape of every counter-using completion: writing DOUT before and finishing after does not disturb the
advance. -/
theorem advancedFrom_setDout_advance_finish (s : State) (X : Block) : s.AdvancedFrom (s.setDout X).advance.finish :=
  advancedFrom_of_eq rfl rfl

/-- CTR_WRAP is set only by the advance that brings CTR back to 0. -/
theorem State.advance_ctr_of_wraps {s : State} (hs : s.ctrWrap = false) (hw : s.advance.ctrWrap = true) :
    s.advance.ctr = 0#128 := by
  by_cases hlast : s.ctr = BitVec.allOnes 128
  · rw [State.advance_ctr, if_pos hlast]
  · rw [State.advance_ctrWrap, if_neg hlast, hs] at hw
    cases hw

/-- No counter-using command is pending on a wrapped counter: acceptance checked CTR_WRAP (60_exceptions.md R147). -/
theorem State.PendingReady.ctrWrap_eq_false {s : State} (h : s.PendingReady) {i : Instr} (hp : s.pending = some i)
    (hi : i.usesCtr = true) : s.ctrWrap = false := by
  obtain ⟨-, hneed⟩ := h i hp
  obtain ⟨-, -, hctr⟩ := (needError_eq_none_iff i s).1 hneed
  exact hctr hi

/-- What a completion does to the counter: nothing, CTR_CLR clears it, the counter-using commands advance it. -/
theorem exec_counter {i : Instr} {s t : State} (h : exec i s = .next t) :
    (t.ctr = s.ctr ∧ t.ctrWrap = s.ctrWrap) ∨ (i = .ctrClr ∧ t.ctr = 0#128) ∨
      (i.usesCtr = true ∧ t.ctr = s.advance.ctr ∧ t.ctrWrap = s.advance.ctrWrap) := by
  obtain ⟨u, hu, hcases⟩ := exec_cases i s
  obtain rfl : u.finish = t := by simpa [hu] using h
  rcases hcases with ⟨-, rfl⟩ | ⟨hi, rfl⟩ | ⟨-, rfl⟩ | ⟨-, rfl⟩ | ⟨-, -, X, rfl⟩ | ⟨hi, -, X, rfl⟩
  · exact .inl ⟨rfl, rfl⟩
  · exact .inr (.inl ⟨hi, rfl⟩)
  · exact .inl ⟨rfl, rfl⟩
  · exact .inl ⟨rfl, rfl⟩
  · exact .inl ⟨rfl, rfl⟩
  · exact .inr (.inr ⟨hi, rfl, rfl⟩)

/-- What a step does to the counter: nothing, or it is a reset, the completion of CTR_CLR, or the completion of a
counter-using command, which advances it. -/
theorem step_counter {s t : State} (h : step s = .next t) :
    (t.ctr = s.ctr ∧ t.ctrWrap = s.ctrWrap) ∨ (s.inputs.head? = some .rst ∧ t.ctr = 0#128) ∨
      (s.EngineNext ∧ s.pending = some .ctrClr ∧ t.ctr = 0#128) ∨
      ∃ i, s.pending = some i ∧ i.usesCtr = true ∧ t.ctr = s.advance.ctr ∧ t.ctrWrap = s.advance.ctrWrap := by
  obtain ⟨rest, -, ⟨-, -, rfl⟩ | ⟨he, i, hp, hx⟩ | ⟨a, -, rfl⟩ | ⟨hr, rfl⟩⟩ := step_cases h
  · exact .inl ⟨rfl, rfl⟩
  · rcases exec_counter hx with hsame | ⟨rfl, hzero⟩ | ⟨hi, hadv⟩
    · exact .inl hsame
    · exact .inr (.inr (.inl ⟨he, hp, hzero⟩))
    · exact .inr (.inr (.inr ⟨i, hp, hi, hadv⟩))
  · obtain ⟨hctr, hwrap, -⟩ := busAccess_frame a { s with inputs := rest }
    exact .inl ⟨hctr, hwrap⟩
  · exact .inr (.inl ⟨hr, rfl⟩)

/-! ### The obligations -/

/-- Settles O39: besides reset and CTR_CLR only a counter-using command moves the counter, and none is pending once it
has wrapped. -/
theorem wrappedCounterIsLocked : Obligations.WrappedCounterIsLocked := by
  intro s t _ hready hwrap h
  rcases step_counter h with ⟨hctr, hsame⟩ | ⟨hr, -⟩ | ⟨he, hp, -⟩ | ⟨i, hp, hi, -⟩
  · exact .inl ⟨hsame.trans hwrap, hctr⟩
  · exact .inr (.inl hr)
  · exact .inr (.inr ⟨he, hp⟩)
  · simp [hready.ctrWrap_eq_false hp hi] at hwrap

/-- Settles O40: reset and CTR_CLR give CTR = 0, and a counter-using command starts from CTR_WRAP = 0, so it sets
CTR_WRAP only on the way to 0. -/
theorem stepKeepsWrapAtZero : Obligations.StepKeepsWrapAtZero := by
  intro s t _ hready hzero h hwrap
  rcases step_counter h with ⟨hctr, hsame⟩ | ⟨-, hctr⟩ | ⟨-, -, hctr⟩ | ⟨i, hp, hi, hctr, hadv⟩
  · exact hctr.trans (hzero (hsame.symm.trans hwrap))
  · exact hctr
  · exact hctr
  · exact hctr.trans (State.advance_ctr_of_wraps (hready.ctrWrap_eq_false hp hi) (hadv.symm.trans hwrap))

/-- Settles O51: with DIN = 0 the XOR leaves the keystream block, of which CTRXOR keeps the first n bytes. -/
theorem ksgenAndCtrxorAgree : Obligations.KsgenAndCtrxorAgree := by
  intro s n hdin
  refine ⟨_, _, exec_ksgen s, exec_ctrxor n s, fun i => ?_, advancedFrom_setDout_advance_finish _ _,
    advancedFrom_setDout_advance_finish _ _⟩
  rw [hdin, xorBlock_zeroBlock_left]
  simp

/-- Settles O53: the mask does not depend on DIN, so on the first n bytes the two masks cancel. -/
theorem streamCommandsAreTheirOwnInverse : Obligations.StreamCommandsAreTheirOwnInverse := by
  intro s t n i hi ht
  obtain ⟨M, hM⟩ := exec_masks_din (.inr hi) s
  obtain ⟨t', ht', hdout⟩ := hM s.din
  obtain rfl := Host.Outcome.next.inj (ht'.symm.trans ht)
  obtain ⟨u, hu, hback⟩ := hM t'.dout
  refine ⟨u, hu, fun j => ?_⟩
  simp [hback, hdout, firstBytes_xorBlock_twice]

/-- Settles O13: KSGEN is `setDout` of the keystream block, `advance`, `finish`. -/
theorem ksgenCompletes : Obligations.KsgenCompletes := by
  intro s
  exact ⟨_, exec_ksgen s, completedFrom_finish, s.keystream_eq, advancedFrom_setDout_advance_finish _ _, rfl, rfl, rfl,
    rfl, rfl⟩

/-- Settles O14: CTRXOR is `setDout`, `advance`, `finish`; DOUT is read byte by byte, and the advance does not depend on
n. -/
theorem ctrxorCompletes : Obligations.CtrxorCompletes := by
  intro s n
  refine ⟨_, exec_ctrxor n s, completedFrom_finish, fun i => ?_, advancedFrom_setDout_advance_finish _ _, ?_⟩
  · simp [State.keystream_eq]
  · simp

end Sys2Proof.Machine
end

section
/-! The host's commands and blocks (30_encoding.md R79, 70_reset_and_hazards.md R170, R171): the core after `<cmd> !`,
LDDIN, the start of a message and its blocks, whatever the waits. How often the bus answers depends on the waits, so the
answers are left open. -/

namespace Sys2Proof.Machine

/-- The same core with other answers of the bus. -/
def State.withAnswers (rs : List Response) (s : State) : State := { s with responses := rs }

/-- A step of a host procedure that succeeds hands its value on. -/
@[simp] theorem except_ok_bind {ε α β : Type} (a : α) (f : α → Except ε β) : (Except.ok a >>= f) = f a := rfl

/-! ### One command -/

/-- A completion neither reads nor writes the answers of the bus. -/
theorem exec_withAnswers {i : Instr} {s t : State} (h : exec i s = .next t) (rs : List Response) :
    exec i (s.withAnswers rs) = .next (t.withAnswers rs) := by
  cases i <;> cases h <;> rfl

/-- A completion writes BUSY, DONE and PENDING without reading them: the acceptance before it leaves no trace. -/
theorem exec_accept {i j : Instr} {s t : State} (h : exec i s = .next t) :
    exec i (s.clearDone.accept j) = .next t := by
  cases i <;> cases h <;> rfl

/-- A decoded command whose state checks all pass is accepted (60_exceptions.md R147). -/
theorem issueCommand_accept {v : Word} {i : Instr} {s : State} (he : s.err = 0#4) (hd : decode v = .cmd i)
    (hn : needError i s = none) : issueCommand v s = s.clearDone.accept i := by
  have hdone : needError i s.clearDone = none := hn
  simp [issueCommand, he, hd, State.tryAccept, hdone]

/-- STATUS shows BUSY in bit 0 and ERR in bits 11:8 (10_state.md R25). -/
theorem busRead_status_busy_err (s : State) :
    (busRead .status s).getLsbD 0 = s.busy ∧ (busRead .status s).extractLsb' 8 4 = s.err := by
  obtain ⟨hbusy, -, -, -, -, herr, -⟩ := statusWordBits s
  exact ⟨hbusy, herr⟩

/-- WAIT with nothing pending reads STATUS once. -/
theorem hostWait_idle {s : State} (hp : s.pending = none) (hb : s.busy = false) (n : Nat) :
    hostWait n s = .ok (s.respond (.data (busRead .status s))) := by
  cases n with
  | zero => simp only [hostWait, feed_engine_idle hp, hostRead_eq, except_ok_bind]
  | succ n => simp only [hostWait, hostRead_eq, except_ok_bind, busRead_status_busy_err, hb, Bool.false_eq_true,
      if_false]

/-- WAIT with a command pending ends after its completion, however many polls see it busy. -/
theorem hostWait_pending {s t : State} {i : Instr} (hp : s.pending = some i) (hb : s.busy = true)
    (hx : exec i s = .next t) (n : Nat) : ∃ rs, hostWait n s = .ok (t.withAnswers rs) := by
  induction n generalizing s t with
  | zero => exact ⟨_, by simp only [hostWait, feed_engine_busy hp hx, hostRead_eq, except_ok_bind]; rfl⟩
  | succ n ih =>
    have hpolled := exec_withAnswers hx (.data (busRead .status s) :: s.responses)
    obtain ⟨rs, hrs⟩ := ih (s := s.respond (.data (busRead .status s))) hp hb hpolled
    refine ⟨rs, ?_⟩
    simp only [hostWait, hostRead_eq, except_ok_bind, busRead_status_busy_err, hb, if_true, hrs]
    rfl

/-- `<cmd> !` on an idle core leaves what the command's completion gives, if its checks pass. -/
theorem hostCommand_eq {i : Instr} {s t : State} (hb : s.busy = false) (he : s.err = 0#4) (hwf : i.wellFormed = true)
    (hn : needError i s = none) (hx : exec i s = .next t) (polls : Nat) :
    ∃ rs, hostCommand i polls s = .ok (t.withAnswers rs) := by
  have haccept : busWrite .cmd (encode i) s = s.clearDone.accept i := by
    rw [busWrite_cmd_idle _ hb, issueCommand_accept he (decode_encode hwf) hn]
  have hpending := exec_withAnswers (exec_accept (j := i) hx) (.okay :: s.responses)
  rw [hostCommand, hostWrite_eq, haccept]
  exact hostWait_pending (s := (s.clearDone.accept i).respond .okay) rfl rfl hpending polls

/-! ### The registers of 16 bytes -/

/-- Four writes set all of a block (20_memory.md R47). -/
theorem setWord_wordOf_all (X Y : Block) :
    setWord (setWord (setWord (setWord Y 0 (wordOf X 0)) 1 (wordOf X 1)) 2 (wordOf X 2)) 3 (wordOf X 3) = X := by
  apply block_ext
  intro i hi
  have byte (k : Fin 4) (hk : i / 4 = k.val) : wordByte (wordOf X k) (i % 4) = X[i] := by
    simp only [wordByte_wordOf X k _ (show i % 4 < 4 by omega), show 4 * k.val + i % 4 = i by omega]
  have hword : i / 4 = 0 ∨ i / 4 = 1 ∨ i / 4 = 2 ∨ i / 4 = 3 := by omega
  rcases hword with h | h | h | h
  · simpa [h] using byte 0 h
  · simpa [h] using byte 1 h
  · simpa [h] using byte 2 h
  · simpa [h] using byte 3 h

/-- LDDIN on an idle core sets DIN. -/
theorem hostLoad_din {s : State} (hb : s.busy = false) (X : Block) :
    ∃ rs, hostLoad .din X s = .ok (State.withAnswers rs { s with din := X }) := by
  refine ⟨.okay :: .okay :: .okay :: .okay :: s.responses, ?_⟩
  simp [hostLoad, hostWrite_eq, busWrite_din_idle, hb, State.loadDin, State.respond, setWord_wordOf_all,
    State.withAnswers]

/-- RDOUT reads DOUT. -/
theorem hostFetch_dout (s : State) : ∃ rs, hostFetch .dout s = .ok (s.dout, s.withAnswers rs) := by
  refine ⟨.data (wordOf s.dout 3) :: .data (wordOf s.dout 2) :: .data (wordOf s.dout 1) :: .data (wordOf s.dout 0) ::
    s.responses, ?_⟩
  simp only [hostFetch, hostRead_eq, except_ok_bind, busRead, State.respond_dout, blockOfReads_wordOf]
  rfl

/-! ### A message -/

/-- Between two blocks of a message: the core is idle without error, the key and the pad are there, and the counter
stands at block `j`. -/
structure State.MessageAt (key pad : Block) (j : Nat) (s : State) : Prop where
  pending : s.pending = none
  busy : s.busy = false
  done : s.done = true
  err : s.err = 0#4
  keyValid : s.keyValid = true
  key_eq : s.key = key
  padValid : s.padValid = true
  pad_eq : s.pad = pad
  ctr_eq : s.ctr = BitVec.ofNat 128 j
  ctrWrap : s.ctrWrap = false

theorem State.MessageAt.withAnswers {key pad : Block} {j : Nat} {s : State} (h : s.MessageAt key pad j)
    (rs : List Response) : (s.withAnswers rs).MessageAt key pad j := { h with }

/-- `CTR_CLR !; LDDIN be128(ms); MD5 !` (70_reset_and_hazards.md R170, R171): the counter at 0, the pad of the
timestamp. -/
theorem openMessage_eq {s : State} (hb : s.busy = false) (he : s.err = 0#4) (hk : s.keyValid = true) (ms : Counter)
    (polls : Nat → Nat) :
    ∃ u, openMessage ms polls s = .ok u ∧ u.MessageAt s.key (md5_16 (be128 ms)) 0 := by
  obtain ⟨r, hclear⟩ := hostCommand_eq hb he rfl rfl (exec_ctrClr s) (polls 1)
  obtain ⟨r', hload⟩ := hostLoad_din (s := s.clearCtr.finish.withAnswers r) rfl (be128 ms)
  obtain ⟨r'', hmd5⟩ := hostCommand_eq
    (s := State.withAnswers r' { s.clearCtr.finish.withAnswers r with din := be128 ms }) rfl he rfl rfl (exec_md5 _)
    (polls 2)
  rw [openMessage, hclear, except_ok_bind, hload, except_ok_bind, hmd5]
  exact ⟨_, rfl, ⟨rfl, rfl, rfl, he, hk, rfl, rfl, rfl, rfl, rfl⟩⟩

/-- The start of an encryption waits first, which changes nothing on an idle core. -/
theorem startMessage_eq {s : State} (hp : s.pending = none) (hb : s.busy = false) (he : s.err = 0#4)
    (hk : s.keyValid = true) (ms : Counter) (polls : Nat → Nat) :
    ∃ u, startMessage ms polls s = .ok u ∧ u.MessageAt s.key (md5_16 (be128 ms)) 0 := by
  rw [startMessage, hostWait_idle hp hb, except_ok_bind]
  exact openMessage_eq (s := s.respond _) hb he hk ms polls

/-- The counter goes from block `j` to the next one and does not wrap below 2^128 (43_aes_ctr.md R116). -/
theorem State.advance_of_lt {s : State} {j : Nat} (hc : s.ctr = BitVec.ofNat 128 j) (hj : j + 1 < 2 ^ 128) :
    s.advance.ctr = BitVec.ofNat 128 (j + 1) ∧ s.advance.ctrWrap = s.ctrWrap := by
  have hlast : s.ctr ≠ BitVec.allOnes 128 := by
    rw [hc, ne_eq, ← BitVec.toNat_inj, BitVec.toNat_ofNat, BitVec.toNat_allOnes, Nat.mod_eq_of_lt (by omega)]
    omega
  rw [State.advance_ctr, State.advance_ctrWrap, if_neg hlast, if_neg hlast, hc, BitVec.ofNat_add]
  exact ⟨rfl, rfl⟩

/-- What the host reads back for block `j` of a message, CRYPT `len` of `X` (44_control.md R134, R138). -/
def cryptedBlock (key pad : Block) (j : Nat) (len : BitVec 5) (X : Block) : Block :=
  firstBytes len (xorBlock (xorBlock X (keystream key (BitVec.ofNat 128 j))) pad)

/-- One block of a message: STATUS.ERR is 0, and the counter stands at the next block. -/
theorem cryptBlock_eq {s : State} {key pad : Block} {j : Nat} (hs : s.MessageAt key pad j) (hj : j + 1 < 2 ^ 128)
    {len : BitVec 5} (hlen : legalLen len = true) (X : Block) (polls : Nat) :
    ∃ t, cryptBlock len X polls s = .ok (cryptedBlock key pad j len X, t) ∧ t.MessageAt key pad (j + 1) := by
  obtain ⟨-, hb, -, he, hk, rfl, hpv, rfl, hc, hw⟩ := hs
  obtain ⟨hctr, hwrap⟩ := State.advance_of_lt hc hj
  have hneed : needError (.crypt len) s = none :=
    (needError_eq_none_iff _ _).2 ⟨fun _ => hk, fun _ => hpv, fun _ => hw⟩
  obtain ⟨r, hload⟩ := hostLoad_din hb X
  obtain ⟨r', hcrypt⟩ := hostCommand_eq (i := .crypt len) (s := State.withAnswers r { s with din := X }) hb he hlen
    hneed (exec_crypt len _) polls
  generalize hu : State.withAnswers r' _ = u at hcrypt
  have hdout : u.dout = cryptedBlock s.key s.pad j len X := by
    rw [← hu, cryptedBlock, ← hc]
    rfl
  have hat : u.MessageAt s.key s.pad (j + 1) := by
    subst hu
    exact ⟨rfl, rfl, rfl, he, hk, rfl, hpv, rfl, hctr, hwrap.trans hw⟩
  obtain ⟨r'', hfetch⟩ := hostFetch_dout u
  have herr : (u.withAnswers r'').err = 0#4 := (hat.withAnswers r'').err
  simp only [cryptBlock, hload, hcrypt, hfetch, hdout, hostRead_eq, liftStop, except_ok_bind, busRead_status_busy_err,
    herr]
  exact ⟨_, rfl, hat.withAnswers _⟩

/-- The blocks of a message from block `j` on. -/
theorem cryptBlocks_eq {key pad : Block} (polls : Nat → Nat) (blocks : List (BitVec 5 × Block))
    (hlen : ∀ b ∈ blocks, legalLen b.1 = true) {j : Nat} {s : State} (hs : s.MessageAt key pad j)
    (hj : j + blocks.length < 2 ^ 128) :
    ∃ t, cryptBlocks polls j blocks s = .ok (blocks.mapIdx fun i b => cryptedBlock key pad (j + i) b.1 b.2, t) ∧
      t.MessageAt key pad (j + blocks.length) := by
  induction blocks generalizing j s with
  | nil => exact ⟨s, rfl, hs⟩
  | cons b blocks ih =>
    obtain ⟨hb, hrest⟩ := List.forall_mem_cons.1 hlen
    rw [List.length_cons] at hj ⊢
    obtain ⟨u, hu, hnext⟩ := cryptBlock_eq hs (by omega) hb b.2 (polls j)
    obtain ⟨t, ht, hlast⟩ := ih hrest hnext (by omega)
    refine ⟨t, ?_, (show j + 1 + blocks.length = j + (blocks.length + 1) by omega) ▸ hlast⟩
    simp only [cryptBlocks, hu, ht, except_ok_bind, List.mapIdx_cons, Nat.add_zero, Nat.add_assoc, Nat.add_comm 1]

end Sys2Proof.Machine
end

section
/-! The statements of 44_control.md: the control commands accepted and completed (R130 to R133), CRYPT at completion
(R134) and as two commands (R135), and a whole message (R138). -/

namespace Sys2Proof.Machine

/-- Zeros after the first `n` bytes do not reach the first `n` bytes of an XOR (R135). -/
theorem firstBytes_xorBlock_firstBytes (n : BitVec 5) (X M : Block) :
    firstBytes n (xorBlock (firstBytes n X) M) = firstBytes n (xorBlock X M) :=
  block_ext fun i hi => by
    by_cases hn : i < n.toNat
    · simp [hn]
    · simp [hn]

/-- The advance neither reads nor writes DOUT (43_aes_ctr.md R116). -/
theorem State.setDout_advance (s : State) (X : Block) : (s.setDout X).advance = s.advance.setDout X := rfl

/-- The first 16 bytes of a block are all of it. -/
theorem firstBytes_sixteen (X : Block) : firstBytes 16#5 X = X :=
  block_ext fun i hi => by simp [hi]

/-- The control commands need no key, no pad and no counter (R133). -/
theorem needError_control {i : Instr} (hi : i ∈ [Instr.nop, .ctrClr, .keyClr]) (s : State) :
    needError i s = none := by
  simp only [List.mem_cons, List.not_mem_nil, or_false] at hi
  obtain rfl | rfl | rfl := hi
  · rfl
  · rfl
  · rfl

/-- An OP of 0, 1 or 2 with LEN = 0 and RSVD = 0 is a control command's word (R130 to R132). -/
theorem exists_control_of_fields {v : Word} (hlen : lenField v = 0#5) (hr : rsvdField v = 0#23)
    (hop : (opField v).toNat ≤ 2) :
    ∃ i ∈ [Instr.nop, .ctrClr, .keyClr], i.op = opField v ∧ decode v = .cmd i := by
  have ops : ∀ op : BitVec 4, op.toNat ≤ 2 → op = 0 ∨ op = 1 ∨ op = 2 := by decide
  have verdict (i : Instr) (hi : opField v = i.op) (hl : i.len = 0#5) (hwf : i.wellFormed = true) :
      decode v = .cmd i := by
    rw [eq_encode_of_fields hr hi (hlen.trans hl.symm), decode_encode hwf]
  obtain h | h | h := ops (opField v) hop
  · exact ⟨.nop, by simp, h.symm, verdict .nop h rfl rfl⟩
  · exact ⟨.ctrClr, by simp, h.symm, verdict .ctrClr h rfl rfl⟩
  · exact ⟨.keyClr, by simp, h.symm, verdict .keyClr h rfl rfl⟩

/-! ### The obligations -/

/-- Settles O52: the XOR with PAD reaches the first n bytes of the intermediate block only, and WHITEN touches no other
register. -/
theorem cryptIsCtrxorThenWhiten : Obligations.CryptIsCtrxorThenWhiten := by
  intro s n
  have hdout := firstBytes_xorBlock_firstBytes n (xorBlock s.din s.keystream) s.pad
  have hcrypt := exec_crypt n s
  have hctrxor := exec_ctrxor n s
  rw [State.setDout_advance] at hcrypt hctrxor
  refine ⟨_, _, _, hcrypt, hctrxor, exec_whiten n _, ?_, advancedFrom_of_eq rfl rfl, advancedFrom_of_eq rfl rfl,
    rfl, rfl, ?_⟩
  · simpa using hdout
  · simp only [← hdout]
    rfl

/-- Settles O55: the message is opened at block 0, and every block advances the counter by one, which does not wrap. -/
theorem messageIsPlainXorKeystreamXorPad : Obligations.MessageIsPlainXorKeystreamXorPad := by
  intro s ms polls P hp hb he hk hP
  obtain ⟨u, hu, hopen⟩ := startMessage_eq hp hb he hk ms polls
  obtain ⟨t, ht, hlast⟩ := cryptBlocks_eq polls (P.map fun X => (16#5, X)) (by simp [legalLen]) hopen
    (by simpa using hP)
  have hout :
      ((P.map fun X => (16#5, X)).mapIdx fun i b => cryptedBlock s.key (md5_16 (be128 ms)) (0 + i) b.1 b.2) =
        P.mapIdx fun j X => xorBlock (xorBlock X (keystream s.key (BitVec.ofNat 128 j))) (md5_16 (be128 ms)) :=
    List.ext_getElem (by simp) fun i _ _ => by simp [cryptedBlock, firstBytes_sixteen]
  refine ⟨u, hu, t, hout ▸ ht, ?_, hlast.key_eq, hlast.err, hlast.busy, hlast.done⟩
  rw [hlast.ctr_eq, BitVec.toNat_ofNat, List.length_map, Nat.zero_add, Nat.mod_eq_of_lt hP]

/-- Settles O9: each command is its data update and then `finish`. -/
theorem controlCommandsComplete : Obligations.ControlCommandsComplete := by
  intro s
  refine ⟨⟨_, exec_nop s, completedFrom_finish, ?_⟩, ⟨_, exec_ctrClr s, completedFrom_finish, ?_⟩,
    ⟨_, exec_keyClr s, completedFrom_finish, ?_⟩⟩
  · simp
  · simp
  · simp [State.keyValid]

/-- Settles O15: CRYPT is `setDout`, `advance`, `finish`; DOUT is read byte by byte. -/
theorem cryptCompletes : Obligations.CryptCompletes := by
  intro s n
  refine ⟨_, exec_crypt n s, completedFrom_finish, fun i => ?_, advancedFrom_setDout_advance_finish _ _, ?_⟩
  · simp [State.keystream_eq]
  · simp

/-- Settles O17: the word is a control command's, and the command has no check to fail. -/
theorem controlCommandsNeedNothing : Obligations.ControlCommandsNeedNothing := by
  intro s v hb he hlen hr hop
  obtain ⟨i, hi, hiop, hd⟩ := exists_control_of_fields hlen hr hop
  refine ⟨i, hi, hiop, ?_⟩
  rw [busWrite_cmd_idle v hb, issueCommand_accept he hd (needError_control hi s)]
  rfl

end Sys2Proof.Machine
end

section
/-! The statements of 60_exceptions.md: the checks of a CMD write in their order (R147), what a rejected and an accepted
command leave unchanged (R144, R148, R174), the sticky ERR (R146), runs that never stop (R142), and a pending command
whose checks stay passed (R153). -/

namespace Sys2Proof.Machine

variable {s t : State}

/-! ### Recording an error (R146) -/

theorem raiseError_of_err_zero (h : s.err = 0#4) (c : CmdError) : s.raiseError c = { s with err := c.code } := by
  simp [State.raiseError, h]

theorem raiseError_of_err_ne_zero (h : s.err ≠ 0#4) (c : CmdError) : s.raiseError c = s := by
  simp [State.raiseError, h]

/-- Code 0 is ERR_NONE (R145). -/
theorem CmdError.code_ne_zero (c : CmdError) : c.code ≠ 0#4 := by cases c <;> decide

/-! ### The checks of a CMD write (R147) -/

/-- The state checks in the terms of R147: KEY and CTR for OP in 5, 6, 7, PAD for OP in 4, 7. -/
theorem needError_eq (i : Instr) (s : State) :
    needError i s =
      if i.op.toNat ∈ [5, 6, 7] ∧ s.keyWmask ≠ 0b1111#4 then some .key
      else if i.op.toNat ∈ [4, 7] ∧ s.padValid = false then some .pad
      else if i.op.toNat ∈ [5, 6, 7] ∧ s.ctrWrap = true then some .ctr
      else none := by
  cases i <;> simp [needError, Instr.needsKey, Instr.needsPad, Instr.usesCtr, Instr.op, State.keyValid]

theorem issueCommand_err_ne_zero (h : s.err ≠ 0#4) (v : Word) : issueCommand v s = s.clearDone := if_pos h

/-- A decoded command is rejected with the code of its first failing state check. -/
theorem issueCommand_reject {v : Word} {i : Instr} {c : CmdError} (he : s.err = 0#4) (hd : decode v = .cmd i)
    (hn : needError i s = some c) : issueCommand v s = { s with done := false, err := c.code } := by
  have hdone : needError i s.clearDone = some c := hn
  simp only [issueCommand, he, hd, State.tryAccept, hdone, ne_eq, not_true_eq_false, if_false]
  exact raiseError_of_err_zero (s := s.clearDone) he c

/-- The CMD write of a legal command whose checks all pass accepts it. -/
theorem busWrite_cmd_accept {i : Instr} (hb : s.busy = false) (he : s.err = 0#4) (hwf : i.wellFormed = true)
    (hn : needError i s = none) : busWrite .cmd (encode i) s = s.clearDone.accept i := by
  rw [busWrite_cmd_idle _ hb, issueCommand_accept he (decode_encode hwf) hn]

/-- IssueCommand finds an error recorded already, records one, or accepts the command with ERR = 0. -/
theorem issueCommand_outcomes (v : Word) (s : State) :
    (s.err ≠ 0#4 ∧ issueCommand v s = s.clearDone) ∨
      (∃ c : CmdError, issueCommand v s = { s with done := false, err := c.code }) ∨
      ∃ i, decode v = .cmd i ∧ needError i s = none ∧ issueCommand v s = s.clearDone.accept i := by
  by_cases he : s.err = 0#4
  · right
    cases hd : decode v with
    | illegal => exact .inl ⟨.illegal, issueCommand_illegal he hd⟩
    | badLen => exact .inl ⟨.len, issueCommand_badLen he hd⟩
    | cmd i =>
      cases hn : needError i s with
      | some c => exact .inl ⟨c, issueCommand_reject he hd hn⟩
      | none => exact .inr ⟨i, rfl, hn, issueCommand_accept he hd hn⟩
  · exact .inl ⟨he, issueCommand_err_ne_zero he v⟩

/-! ### What keeps ERR, and what clears it (R33, R152) -/

/-- Every completion goes on, and whatever the command, it leaves a completed state (70_reset_and_hazards.md R175). -/
theorem exec_next (i : Instr) (s : State) : ∃ t, exec i s = .next t ∧ s.CompletedFrom t := by
  obtain ⟨u, hu, hcases⟩ := exec_cases i s
  refine ⟨u.finish, hu, ?_⟩
  rcases hcases with ⟨-, rfl⟩ | ⟨-, rfl⟩ | ⟨-, rfl⟩ | ⟨-, rfl⟩ | ⟨-, -, X, rfl⟩ | ⟨-, -, X, rfl⟩ <;>
    exact completedFrom_finish

theorem exec_completedFrom {i : Instr} {s : State} (h : exec i s = .next t) : s.CompletedFrom t := by
  obtain ⟨u, hu, hdone⟩ := exec_next i s
  obtain rfl := Host.Outcome.next.inj (hu.symm.trans h)
  exact hdone

/-- Once ERR is not 0, the only write that changes it is the one that clears it. -/
theorem busWrite_err_of_ne_zero (h : s.err ≠ 0#4) (r : Reg) (v : Word) :
    (busWrite r v s).err = if r = .status ∧ v.getLsbD 31 = true then 0#4 else s.err := by
  cases hr : r.gated with
  | false => rw [busWrite_ungated hr]
  | true =>
    have hstatus : r ≠ .status := by rintro rfl; cases hr
    rw [if_neg fun hclr => hstatus hclr.1]
    cases hb : s.busy with
    | true => rw [busWrite_gated_busy hr hb, raiseError_of_err_ne_zero h]
    | false =>
      rcases gated_eq_true_iff.1 hr with rfl | ⟨k, rfl⟩ | ⟨k, rfl⟩
      · rw [busWrite_cmd_idle v hb, issueCommand_err_ne_zero h, State.clearDone_err]
      · rw [busWrite_key_idle k v hb, State.loadKey_err]
      · rw [busWrite_din_idle k v hb, State.loadDin_err]

/-- Once ERR is not 0, the only access that changes it is a STATUS write with bit 31 set. -/
theorem busAccess_err_of_ne_zero (h : s.err ≠ 0#4) (a : Access) :
    (busAccess a s).err = s.err ∨
      (busAccess a s).err = 0#4 ∧ ∃ v : Word, v.getLsbD 31 = true ∧ a = Access.wr .status v := by
  rcases busAccess_cases a s with ⟨-, e⟩ | ⟨r, hr, e⟩ <;> rw [e]
  · exact .inl rfl
  cases hk : a.kind with
  | read => exact .inl rfl
  | write v =>
    simp only [performAccess, State.respond_err, busWrite_err_of_ne_zero h]
    by_cases hclr : r = .status ∧ v.getLsbD 31 = true
    · obtain ⟨rfl, hv⟩ := hclr
      exact .inr ⟨if_pos ⟨rfl, hv⟩, v, hv, eq_wr_of_target hr hk⟩
    · exact .inl (if_neg hclr)

/-! ### Every step goes on (R142) -/

theorem engineStep_next (s : State) : ∃ t, engineStep s = .next t := by
  cases hp : s.pending with
  | none => exact ⟨s, by rw [engineStep, hp]⟩
  | some i =>
    obtain ⟨t, ht, -⟩ := exec_next i s
    exact ⟨t, (engineStep_pending hp).trans ht⟩

theorem step_next (s : State) : ∃ t, step s = .next t := by
  cases hi : s.inputs with
  | nil => rw [step_no_input hi]; exact engineStep_next s
  | cons x rest =>
    rw [step_input hi]
    cases x with
    | access a => exact ⟨_, rfl⟩
    | engine => exact engineStep_next _
    | rst => exact ⟨_, rfl⟩

/-- A run whose first step goes on is that step and the rest of the run. -/
theorem run_succ {M : Host.Core} {s u : M.State} (h : M.step s = .next u) (k : Nat) : M.run (k + 1) s = M.run k u := by
  rw [Host.Core.run, h]

/-! ### A pending command stays ready (R153) -/

/-- Readiness speaks of PENDING and of what the state checks read only. -/
theorem State.PendingReady.congr (h : s.PendingReady) (hp : t.pending = s.pending := by simp)
    (hk : t.keyWmask = s.keyWmask := by simp) (hv : t.padValid = s.padValid := by simp)
    (hw : t.ctrWrap = s.ctrWrap := by simp) : t.PendingReady := by
  intro i hi
  rw [needError_congr i hk hv hw]
  exact h i (hp ▸ hi)

theorem pendingReady_of_pending_none (h : s.pending = none) : s.PendingReady := fun i hi => by simp [h] at hi

theorem State.Inv.pending_eq_none (h : s.Inv) (hb : s.busy = false) : s.pending = none := by
  by_contra hp
  simp [h.busy_iff.2 hp] at hb

/-- Acceptance establishes readiness: the decoder answers legal commands only, and the state checks passed. -/
theorem State.PendingReady.issueCommand (h : s.PendingReady) (v : Word) : (issueCommand v s).PendingReady := by
  rcases issueCommand_cases v s with e | ⟨c, e⟩ | ⟨i, hd, -, hn, e⟩ <;> rw [e]
  · exact h.congr
  · exact h.congr
  · intro j hj
    obtain rfl : i = j := by simpa using hj
    obtain ⟨hwf, -⟩ := eq_encode_of_decode hd
    exact ⟨hwf, hn⟩

/-- While a command is pending BUSY keeps the writes of KEYk away, and with none pending nothing has to be ready. -/
theorem State.PendingReady.busWrite (h : s.PendingReady) (hinv : s.Inv) (r : Reg) (v : Word) :
    (busWrite r v s).PendingReady := by
  rcases busWrite_cases r v s with e | e | ⟨-, e⟩ | ⟨-, -, e⟩ | ⟨hb, k, -, e⟩ | ⟨-, k, -, e⟩ <;> rw [e]
  · exact h
  · exact h.congr
  · exact h.congr
  · exact h.issueCommand v
  · exact pendingReady_of_pending_none (hinv.pending_eq_none hb)
  · exact h.congr

theorem State.PendingReady.respond (h : s.PendingReady) (r : Response) : (s.respond r).PendingReady := h.congr

theorem State.PendingReady.busAccess (h : s.PendingReady) (hinv : s.Inv) (a : Access) :
    (busAccess a s).PendingReady := by
  rcases busAccess_cases a s with ⟨-, e⟩ | ⟨r, -, e⟩ <;> rw [e]
  · exact h.respond .error
  cases a.kind with
  | read => exact h.respond _
  | write v => exact (h.busWrite hinv r v).respond .okay

/-! ### The obligations -/

/-- Settles O7: the word decodes to its command, whose state checks pass, so the write accepts it, and the engine's turn
then finds it pending. -/
theorem commandWriteThenCompletion : Obligations.CommandWriteThenCompletion := by
  intro s i rest hi hwf hb he hkey hpad hctr
  have hneed : needError i s = none :=
    (needError_eq_none_iff i s).2 ⟨fun h => by rw [State.keyValid, hkey h]; rfl, hpad, hctr⟩
  have hwrite := step_write hi
  rw [busWrite_cmd_accept (s := { s with inputs := .engine :: rest }) hb he hwf hneed] at hwrite
  refine ⟨_, hwrite, rfl, rfl, rfl, he, rfl, rfl, rfl, rfl, ?_⟩
  rw [step_input rfl, takeInput, engineStep_pending rfl]

/-- Settles O16: BUSY gates the write, `issueCommand` checks ERR and the decoder's verdict, `needError_eq` the rest. -/
theorem commandChecksInOrder : Obligations.CommandChecksInOrder := by
  have completion (i : Instr) (s : State) : ∃ t, exec i s = .next t ∧ t.err = s.err := by
    obtain ⟨t, ht, hdone⟩ := exec_next i s
    exact ⟨t, ht, hdone.err⟩
  refine ⟨completion, fun s v => ⟨fun hb => ?_, fun hb he => ?_, fun hb he => ?_⟩⟩
  · exact busWrite_gated_busy rfl hb v
  · rw [busWrite_cmd_idle v hb, issueCommand_err_ne_zero he]
    rfl
  rw [busWrite_cmd_idle v hb]
  refine ⟨issueCommand_illegal he, issueCommand_badLen he, fun i hd => ?_⟩
  have hneed := needError_eq i s
  refine ⟨fun hkey => ?_, fun hkey => ⟨fun hpad => ?_, fun hpad => ⟨fun hctr => ?_, fun hctr => ?_⟩⟩⟩
  · rw [if_pos hkey] at hneed
    exact issueCommand_reject he hd hneed
  · rw [if_neg hkey, if_pos hpad] at hneed
    exact issueCommand_reject he hd hneed
  · rw [if_neg hkey, if_neg hpad, if_pos hctr] at hneed
    exact issueCommand_reject he hd hneed
  · rw [if_neg hkey, if_neg hpad, if_neg hctr] at hneed
    exact issueCommand_accept he hd hneed

/-- Settles O19: an idle turn and a completion leave ERR, and an access that changes it is the write that clears it. -/
theorem firstErrorIsSticky : Obligations.FirstErrorIsSticky := by
  refine ⟨fun s c => ⟨fun h => raiseError_of_err_zero h c, fun h => raiseError_of_err_ne_zero h c⟩,
    fun s t hne h => ?_⟩
  obtain ⟨rest, -, ⟨-, -, rfl⟩ | ⟨-, i, -, hx⟩ | ⟨a, ha, rfl⟩ | ⟨hr, rfl⟩⟩ := step_cases h
  · exact .inl rfl
  · exact .inl (exec_completedFrom hx).err
  · refine (busAccess_err_of_ne_zero (s := { s with inputs := rest }) hne a).imp_right ?_
    rintro ⟨hzero, v, hv, rfl⟩
    exact ⟨hzero, .inr ⟨v, hv, ha⟩⟩
  · exact .inr ⟨rfl, .inl hr⟩

/-- Settles O20: `issueCommand_outcomes` case by case; none of the outcomes touches a data register. -/
theorem rejectedCommandsArePrecise : Obligations.RejectedCommandsArePrecise := by
  intro s v hb
  rw [busWrite_cmd_idle v hb]
  rcases issueCommand_outcomes v s with ⟨he, e⟩ | ⟨c, e⟩ | ⟨i, hd, -, e⟩ <;> rw [e]
  · simp [hb, he]
  · simp [hb, c.code_ne_zero]
  · simp [hd]

/-- Settles O33: by induction on the number of steps, of which each goes on. -/
theorem runsNeverStop : Obligations.RunsNeverStop := by
  intro s k
  induction k generalizing s with
  | zero => exact ⟨s, rfl⟩
  | succ k ih =>
    obtain ⟨u, hu⟩ := step_next s
    obtain ⟨t, ht⟩ := ih u
    exact ⟨t, (run_succ hu k).trans ht⟩

/-- Settles O38: an idle turn changes no check, a completion and a reset leave nothing pending, and no access breaks
readiness. -/
theorem stepKeepsPendingReady : Obligations.StepKeepsPendingReady := by
  intro s t hinv hready h
  obtain ⟨rest, -, ⟨-, -, rfl⟩ | ⟨-, i, -, hx⟩ | ⟨a, -, rfl⟩ | ⟨-, rfl⟩⟩ := step_cases h
  · exact hready.congr
  · exact pendingReady_of_pending_none (exec_completedFrom hx).pending
  · have hrest : ({ s with inputs := rest } : State).PendingReady := hready.congr
    exact hrest.busAccess hinv.congr a
  · exact pendingReady_of_pending_none rfl

end Sys2Proof.Machine
end

section
/-! The life of a command (70_reset_and_hazards.md R164 to R166, R174 to R180): what raises and lowers BUSY, what
accesses can do while a command is pending, its completion, idle turns and reset. -/

namespace Sys2Proof.Machine

variable {s t : State}

/-! ### The engine without a command -/

theorem engineStep_idle (h : s.pending = none) : engineStep s = .next s := by
  rw [engineStep, h]

/-! ### What an access does while a command is pending -/

/-- The same core with another ERR, other inputs to come and other answers: what accesses change while a command is
pending (20_memory.md R56). -/
def State.withRecord (e : BitVec 4) (xs : List Input) (rs : List Response) (s : State) : State :=
  { s with err := e, inputs := xs, responses := rs }

/-- An access made while a command is pending can touch ERR and is answered, whether it reads, writes or is a bus error
(20_memory.md R48, R54, R56). -/
theorem busAccess_busy (h : s.busy = true) (a : Access) : ∃ e rs, busAccess a s = s.withRecord e s.inputs rs := by
  rcases busAccess_cases a s with ⟨-, e⟩ | ⟨r, -, e⟩ <;> rw [e]
  · exact ⟨s.err, .error :: s.responses, rfl⟩
  cases a.kind with
  | read => exact ⟨s.err, .data (busRead r s) :: s.responses, rfl⟩
  | write v =>
    obtain ⟨c, hc⟩ := busWrite_busy (r := r) (v := v) h
    refine ⟨c, .okay :: s.responses, ?_⟩
    rw [performAccess, hc]
    rfl

/-- The step of an access while a command is pending. -/
theorem step_access_busy (hb : s.busy = true) {a : Access} {rest : List Input} (hi : s.inputs = .access a :: rest) :
    ∃ e rs, step s = .next (s.withRecord e rest rs) := by
  obtain ⟨e, rs, h⟩ := busAccess_busy (s := { s with inputs := rest }) hb a
  refine ⟨e, rs, ?_⟩
  rw [step_input hi, takeInput, h]
  rfl

/-- A run of the core whose first step goes on. -/
theorem run_core_succ {u : State} (h : step s = .next u) (k : Nat) :
    Host.Core.run core (k + 1) s = Host.Core.run core k u := run_succ (M := core) h k

/-- Any number of accesses while a command is pending, one after the other. -/
theorem runAccesses_busy (as : List Access) (hb : s.busy = true) :
    ∃ e rs, runAccesses as s = .next (s.withRecord e [] rs) := by
  induction as generalizing s with
  | nil => exact ⟨s.err, s.responses, rfl⟩
  | cons a as ih =>
    obtain ⟨e, rs, hstep⟩ := step_access_busy (s := { s with inputs := (a :: as).map .access }) hb rfl
    obtain ⟨e', rs', hrun⟩ := ih (s := s.withRecord e [] rs) hb
    exact ⟨e', rs', (run_core_succ hstep as.length).trans hrun⟩

/-- A completion neither reads nor writes ERR, the inputs and the answers: what accesses did before it does not reach
its results (R61, R178). -/
theorem exec_withRecord {i : Instr} (h : exec i s = .next t) (e : BitVec 4) (xs : List Input) (rs : List Response) :
    exec i (s.withRecord e xs rs) = .next (t.withRecord e xs rs) := by
  cases i <;> cases h <;> rfl

/-! ### Acceptance -/

/-- Of the writes only a CMD write raises BUSY, and then its word's command is pending (60_exceptions.md R147). -/
theorem busWrite_raises_busy {r : Reg} {v : Word} (hb : s.busy = false) (h : (busWrite r v s).busy = true) :
    r = .cmd ∧ ∃ i, decode v = .cmd i ∧ (busWrite r v s).pending = some i := by
  rcases busWrite_cases r v s with e | e | ⟨-, e⟩ | ⟨-, rfl, e⟩ | ⟨-, k, -, e⟩ | ⟨-, k, -, e⟩ <;> rw [e] at h ⊢
  · simp [hb] at h
  · simp [hb] at h
  · simp [hb] at h
  · rcases issueCommand_cases v s with e | ⟨c, e⟩ | ⟨i, hd, -, -, e⟩ <;> rw [e] at h ⊢
    · simp [hb] at h
    · simp [hb] at h
    · exact ⟨rfl, i, hd, rfl⟩
  · simp [hb] at h
  · simp [hb] at h

/-- Of the accesses only a CMD write raises BUSY. -/
theorem busAccess_raises_busy {a : Access} (hb : s.busy = false) (h : (busAccess a s).busy = true) :
    ∃ v i, a = Access.wr .cmd v ∧ decode v = .cmd i ∧ (busAccess a s).pending = some i := by
  rcases busAccess_cases a s with ⟨-, e⟩ | ⟨r, hr, e⟩ <;> rw [e] at h ⊢
  · simp [hb] at h
  cases hk : a.kind with
  | read => simp [hk, performAccess, hb] at h
  | write v =>
    rw [hk] at h
    obtain ⟨rfl, i, hd, hp⟩ := busWrite_raises_busy hb h
    exact ⟨v, i, eq_wr_of_target hr hk, hd, hp⟩

/-! ### Completion -/

/-- The engine's turn completes a pending command (R175). -/
theorem run_one_completes (hp : s.pending ≠ none) (he : s.EngineNext) :
    ∃ t, Host.Core.run core 1 s = .next t ∧ t.pending = none ∧ t.busy = false ∧ t.done = true := by
  obtain ⟨t, h⟩ := step_next s
  refine ⟨t, run_core_succ h 0, ?_⟩
  obtain ⟨rest, -, ⟨-, hnone, -⟩ | ⟨-, i, -, hx⟩ | ⟨a, ha, -⟩ | ⟨hr, -⟩⟩ := step_cases h
  · exact absurd hnone hp
  · have hdone := exec_completedFrom hx
    exact ⟨hdone.pending, hdone.busy, hdone.done⟩
  · simp [State.EngineNext, ha] at he
  · simp [State.EngineNext, hr] at he

/-- Without a reset to come a pending command completes: each access keeps it pending and takes one input off the list,
and then the engine has its turn (R180). -/
theorem exists_run_completes {xs : List Input} (hb : s.busy = true) (hp : s.pending ≠ none) (hxs : s.inputs = xs)
    (hrst : Input.rst ∉ xs) :
    ∃ k ≤ xs.length + 1, ∃ t, Host.Core.run core k s = .next t ∧ t.pending = none ∧ t.busy = false ∧
      t.done = true := by
  induction xs generalizing s with
  | nil => exact ⟨1, by simp, run_one_completes hp (.inl (by simp [hxs]))⟩
  | cons x xs ih =>
    cases x with
    | rst => simp at hrst
    | engine => exact ⟨1, by simp, run_one_completes hp (.inr (by simp [hxs]))⟩
    | access a =>
      obtain ⟨e, rs, hstep⟩ := step_access_busy hb hxs
      obtain ⟨k, hk, t, ht, hdone⟩ := ih (s := s.withRecord e xs rs) hb hp rfl (by simpa using hrst)
      exact ⟨k + 1, by simpa using hk, t, (run_core_succ hstep k).trans ht, hdone⟩

/-! ### The obligations -/

/-- Settles O46: of the four things a step can be, only an access raises BUSY, only a completion and a reset lower it,
and an access while busy keeps the pending command. -/
theorem lifecycleTransitions : Obligations.LifecycleTransitions := by
  intro s t _ h
  obtain ⟨rest, -, ⟨he, -, rfl⟩ | ⟨he, i, -, hx⟩ | ⟨a, ha, rfl⟩ | ⟨hr, rfl⟩⟩ := step_cases h
  · exact ⟨fun hb hb' => by simp [hb] at hb', fun _ _ => .inr he, fun _ _ => rfl⟩
  · have hidle : t.busy = false := (exec_completedFrom hx).busy
    exact ⟨fun _ hb' => by simp [hidle] at hb', fun _ _ => .inr he, fun _ hb' => by simp [hidle] at hb'⟩
  · have keeps (hb : s.busy = true) : (busAccess a { s with inputs := rest }).busy = true ∧
        (busAccess a { s with inputs := rest }).pending = s.pending := by
      obtain ⟨e, rs, hbusy⟩ := busAccess_busy (s := { s with inputs := rest }) hb a
      rw [hbusy]
      exact ⟨hb, rfl⟩
    refine ⟨fun hb hb' => ?_, fun hb hb' => ?_, fun hb _ => (keeps hb).2⟩
    · obtain ⟨v, i, rfl, hd, hp⟩ := busAccess_raises_busy (s := { s with inputs := rest }) hb hb'
      exact ⟨v, i, ha, hd, hp⟩
    · simp [(keeps hb).1] at hb'
  · exact ⟨fun _ hb' => by simp at hb', fun _ _ => .inl hr, fun _ hb' => by simp at hb'⟩

/-- Settles O48: the accesses change ERR, the inputs and the answers only, and the completion does not read them. -/
theorem snapshotEquivalence : Obligations.SnapshotEquivalence := by
  intro s i as hinv hp
  have hb : s.busy = true := hinv.busy_iff.2 (by simp [hp])
  obtain ⟨e, rs, hrun⟩ := runAccesses_busy as hb
  obtain ⟨u, hu, -⟩ := exec_next i s
  exact ⟨_, hrun, hp, hb, rfl, rfl, u, _, hu, exec_withRecord hu e [] rs, rfl, rfl, rfl⟩

/-- Settles O49: the run ends with the engine's turn, at the latest after the last input. -/
theorem pendingCommandCompletes : Obligations.PendingCommandCompletes := by
  intro s hinv hp hrst
  exact exists_run_completes (hinv.busy_iff.2 hp) hp rfl hrst

/-- Settles O8: with nothing pending the engine's turn is no change of the state it finds. -/
theorem idleEngineWaits : Obligations.IdleEngineWaits := by
  intro s hp
  refine ⟨fun hi => ?_, fun rest hi => ?_⟩
  · rw [step_no_input hi, engineStep_idle hp]
  · rw [step_input hi, takeInput]
    exact engineStep_idle (s := { s with inputs := rest }) hp

/-- Settles O35: the step takes RST off the inputs and resets the rest of the state. -/
theorem resetAbandonsThePendingCommand : Obligations.ResetAbandonsThePendingCommand := by
  intro s rest hi
  rw [step_input hi]
  rfl

end Sys2Proof.Machine
end

section
/-! The host's texts (70_reset_and_hazards.md R168, R172, R173): padding, stripping, and hex. -/

namespace Sys2Proof.Machine

/-! ### Padding (R168) -/

theorem targetLen_of_lt {n : Nat} (h : n < 128) : targetLen n = 128 := if_pos h

theorem targetLen_of_ge {n : Nat} (h : 128 ≤ n) : targetLen n = 16 * ((n + 15) / 16) := if_neg (by omega)

/-- The target length is whole blocks, and the text fits with at most 128 bytes to spare. -/
theorem targetLen_spec (n : Nat) : 16 ∣ targetLen n ∧ n ≤ targetLen n ∧ targetLen n ≤ n + 128 := by
  by_cases h : n < 128
  · rw [targetLen_of_lt h]
    omega
  · rw [targetLen_of_ge (by omega)]
    omega

@[simp] theorem length_padMessage (M : List Byte) : (padMessage M).length = targetLen M.length := by
  obtain ⟨-, hle, -⟩ := targetLen_spec M.length
  simp [padMessage, hle]

/-! ### Stripping (R172) -/

/-- `Strip` is the library's removal of a list's last elements while they are zero. -/
theorem strip_eq_rdropWhile (P : List Byte) : strip P = P.rdropWhile (· == 0) := rfl

theorem strip_append_zeros (M : List Byte) (k : Nat) : strip (M ++ List.replicate k 0) = strip M := by
  induction k with
  | zero => simp
  | succ k ih =>
    rw [List.replicate_succ', ← List.append_assoc, strip_eq_rdropWhile, List.rdropWhile_concat_pos _ _ _ rfl]
    exact ih

theorem strip_eq_self_iff (P : List Byte) : strip P = P ↔ P.getLast? ≠ some 0 := by
  rw [strip_eq_rdropWhile, List.rdropWhile_eq_self_iff]
  by_cases h : P = []
  · simp [h]
  · simp [h, List.getLast?_eq_some_getLast h]

theorem getLast?_strip (P : List Byte) : (strip P).getLast? ≠ some 0 :=
  (strip_eq_self_iff _).1 (List.rdropWhile_idempotent _ P)

/-- What is stripped is zeros. -/
theorem exists_eq_strip_append_zeros (P : List Byte) : ∃ j, P = strip P ++ List.replicate j 0 := by
  have hzeros : P.rtakeWhile (· == 0) = List.replicate (P.rtakeWhile (· == 0)).length 0 :=
    List.eq_replicate_of_mem fun b hb => by simpa using List.mem_rtakeWhile_imp hb
  exact ⟨_, by rw [← hzeros, strip_eq_rdropWhile, List.rdropWhile_append_rtakeWhile]⟩

theorem strip_padMessage (M : List Byte) : strip (padMessage M) = strip M := strip_append_zeros M _

/-! ### Hex (R173) -/

theorem lowerHexDigit_mem : ∀ n < 16, lowerHexDigit n ∈ "0123456789abcdef".toList := by decide

theorem hexValue_lowerHexDigit : ∀ n < 16, hexValue (lowerHexDigit n) = some n := by decide

theorem hexOf_cons (b : Byte) (C : List Byte) :
    hexOf (b :: C) = lowerHexDigit (b.toNat / 16) :: lowerHexDigit (b.toNat % 16) :: hexOf C := rfl

theorem length_hexOf (C : List Byte) : (hexOf C).length = 2 * C.length := by
  induction C with
  | nil => rfl
  | cons b C ih =>
    rw [hexOf_cons, List.length_cons, List.length_cons, List.length_cons, ih]
    omega

/-- The two digits of a byte, high one first, give the byte back. -/
theorem readHexBytes_hexOf (C : List Byte) : readHexBytes (hexOf C) = some C := by
  induction C with
  | nil => rfl
  | cons b C ih =>
    have hb := b.isLt
    rw [hexOf_cons, readHexBytes, hexValue_lowerHexDigit _ (by omega), hexValue_lowerHexDigit _ (by omega), ih]
    simp [Nat.div_add_mod]

theorem unhex_hexOf {C : List Byte} (h : C.length % 16 = 0) : unhex (hexOf C) = .ok C := by
  simp [unhex, length_hexOf, readHexBytes_hexOf, h]

/-! ### The obligations -/

/-- Settles O58: below and above 128, and what follows the message is the zeros `padMessage` appends. -/
theorem targetLenRule : Obligations.TargetLenRule := by
  intro n
  obtain ⟨hdvd, hle, -⟩ := targetLen_spec n
  refine ⟨targetLen_of_lt, fun h => ⟨hdvd, hle, by rw [targetLen_of_ge h]; omega⟩, ?_⟩
  rintro M rfl
  refine ⟨length_padMessage M, List.prefix_append M _, fun b hb => ?_⟩
  rw [padMessage, List.drop_left] at hb
  exact List.eq_of_mem_replicate hb

/-- Settles O59: zeros at the end do not matter to `strip`, and it changes nothing exactly where there are none. -/
theorem stripRule : Obligations.StripRule := by
  intro M k
  refine ⟨strip_append_zeros M k, getLast?_strip M, exists_eq_strip_append_zeros M, ?_⟩
  rw [strip_padMessage, strip_eq_self_iff]

/-- Settles O60: the digits are read back two by two, and an odd length is refused before any digit is read. -/
theorem hexReadsBack : Obligations.HexReadsBack := by
  refine ⟨fun C => unhex_hexOf, fun C c hc => ?_, fun H h => if_pos (by omega)⟩
  obtain ⟨b, -, hc⟩ := List.mem_flatMap.1 hc
  have hb := b.isLt
  simp only [List.mem_cons, List.not_mem_nil, or_false] at hc
  obtain rfl | rfl := hc
  · exact lowerHexDigit_mem _ (by omega)
  · exact lowerHexDigit_mem _ (by omega)

end Sys2Proof.Machine
end

section
/-! Encryption and decryption of a message (70_reset_and_hazards.md R170, R171): both XOR each byte with one mask byte,
which KEY, PAD and the byte's place in the message determine. -/

namespace Sys2Proof.Machine

variable {key pad : Block}

/-! ### The bytes of a message's blocks -/

/-- The mask of byte `i` of a message: the keystream of its block and the pad (44_control.md R138). -/
def messageMask (key pad : Block) (i : Nat) : Byte :=
  (keystream key (BitVec.ofNat 128 (i / 16)))[i % 16] ^^^ pad[i % 16]

/-- The text from byte `k` of a message on, each byte XORed with its mask. -/
def maskBytes (key pad : Block) (k : Nat) (bs : List Byte) : List Byte :=
  bs.mapIdx fun i b => b ^^^ messageMask key pad (k + i)

@[simp] theorem length_maskBytes (k : Nat) (bs : List Byte) : (maskBytes key pad k bs).length = bs.length :=
  List.length_mapIdx

/-- XOR with the same mask twice is no change (44_control.md R136). -/
theorem maskBytes_maskBytes (k : Nat) (bs : List Byte) : maskBytes key pad k (maskBytes key pad k bs) = bs :=
  List.ext_getElem (by simp) fun i _ _ => by simp [maskBytes]

theorem maskBytes_append (k : Nat) (bs cs : List Byte) :
    maskBytes key pad k (bs ++ cs) = maskBytes key pad k bs ++ maskBytes key pad (k + bs.length) cs := by
  simp [maskBytes, List.mapIdx_append, Nat.add_assoc, Nat.add_comm bs.length]

/-- One piece of a message as the host hands it to the core: its length and its bytes with zeros after them. -/
def pieceBlock (p : List Byte) : BitVec 5 × Block := (BitVec.ofNat 5 p.length, blockOf p)

theorem messageBlocks_eq (bs : List Byte) : messageBlocks bs = (pieces ((bs.length + 15) / 16) bs).map pieceBlock := rfl

theorem toNat_pieceBlock_fst {p : List Byte} (h : p.length ≤ 16) : (pieceBlock p).1.toNat = p.length := by
  rw [pieceBlock, BitVec.toNat_ofNat, Nat.mod_eq_of_lt (by omega)]

theorem length_pieces (n : Nat) (bs : List Byte) : (pieces n bs).length = n := by
  induction n generalizing bs with
  | zero => rfl
  | succ n ih => rw [pieces, List.length_cons, ih]

/-- No piece is empty if the text reaches into the last one, and none is longer than a block. -/
theorem legalLen_pieceBlock (n : Nat) {bs : List Byte} (h : 16 * n < bs.length + 16) :
    ∀ p ∈ pieces n bs, legalLen (pieceBlock p).1 = true := by
  induction n generalizing bs with
  | zero => simp [pieces]
  | succ n ih =>
    intro p hp
    obtain rfl | hp := List.mem_cons.1 hp
    · exact legalLen_ofNat (by rw [List.length_take]; omega) (by rw [List.length_take]; omega)
    · exact ih (by rw [List.length_drop]; omega) p hp

/-- What is kept of block `j`: the piece's own bytes, masked. -/
theorem take_cryptedBlock {p : List Byte} (h : p.length ≤ 16) (j : Nat) :
    (cryptedBlock key pad j (pieceBlock p).1 (pieceBlock p).2).toList.take (pieceBlock p).1.toNat =
      maskBytes key pad (16 * j) p := by
  have hlen := toNat_pieceBlock_fst h
  rw [hlen]
  refine List.ext_getElem (by simp [h]) fun i _ hi => ?_
  rw [length_maskBytes] at hi
  have hdiv : (16 * j + i) / 16 = j := by omega
  have hmod : i % 16 = i := by omega
  have hbyte (hi16 : i < 16) : (pieceBlock p).2[i] = p[i] := by simp [pieceBlock, blockOf, hi]
  simp [cryptedBlock, maskBytes, messageMask, hlen, hi, hdiv, hmod, hbyte, BitVec.xor_assoc]

theorem keptBytes_cons (b : BitVec 5 × Block) (Y : Block) (bs : List (BitVec 5 × Block)) (Ys : List Block) :
    keptBytes (b :: bs) (Y :: Ys) = Y.toList.take b.1.toNat ++ keptBytes bs Ys := rfl

/-- What is kept of the blocks from block `j` on, if the pieces cover the text. -/
theorem keptBytes_pieces (n : Nat) {bs : List Byte} (h : bs.length ≤ 16 * n) (j : Nat) :
    keptBytes ((pieces n bs).map pieceBlock)
        (((pieces n bs).map pieceBlock).mapIdx fun i b => cryptedBlock key pad (j + i) b.1 b.2) =
      maskBytes key pad (16 * j) bs := by
  induction n generalizing bs j with
  | zero =>
    obtain rfl : bs = [] := List.eq_nil_of_length_eq_zero (by omega)
    rfl
  | succ n ih =>
    have hrest := ih (bs := bs.drop 16) (by rw [List.length_drop]; omega) (j + 1)
    have hnext : maskBytes key pad (16 * (j + 1)) (bs.drop 16) =
        maskBytes key pad (16 * j + (bs.take 16).length) (bs.drop 16) := by
      obtain hshort | hfull := Nat.le_total bs.length 16
      · simp [List.drop_of_length_le hshort, maskBytes]
      · rw [List.length_take, Nat.min_eq_left hfull, Nat.mul_succ]
    calc _ = maskBytes key pad (16 * j) (bs.take 16) ++ maskBytes key pad (16 * (j + 1)) (bs.drop 16) := by
          rw [← hrest, pieces, List.map_cons, List.mapIdx_cons, keptBytes_cons,
            Nat.add_zero, take_cryptedBlock (by simp)]
          simp only [Nat.add_assoc, Nat.add_comm 1]
      _ = maskBytes key pad (16 * j) bs := by
          rw [hnext, ← maskBytes_append, List.take_append_drop]

/-! ### The procedures -/

/-- The transform of a message of any length, both directions: its bytes masked, and the core ready for the next
message. -/
theorem cryptMessage_eq {s : State} (hs : s.MessageAt key pad 0) {bs : List Byte} (hbs : bs.length < 2 ^ 128)
    (polls : Nat → Nat) :
    ∃ t j, cryptMessage polls bs s = .ok (maskBytes key pad 0 bs, t) ∧ t.MessageAt key pad j := by
  have hlegal : ∀ b ∈ messageBlocks bs, legalLen b.1 = true := by
    rw [messageBlocks_eq, List.forall_mem_map]
    exact legalLen_pieceBlock _ (by omega)
  have hcount : 0 + (messageBlocks bs).length < 2 ^ 128 := by
    rw [messageBlocks_eq, List.length_map, length_pieces]
    omega
  obtain ⟨t, ht, hlast⟩ := cryptBlocks_eq (fun j => polls (j + 3)) _ hlegal hs hcount
  refine ⟨t, _, ?_, hlast⟩
  simp only [cryptMessage, ht, except_ok_bind]
  rw [messageBlocks_eq, keptBytes_pieces _ (by omega)]

/-- An encryption that does not fail on its timestamp gives the padded message, masked, in hex, and leaves the core
idle with its key (R170). -/
theorem encryptMessage_eq {s : State} {params : HostParams} {T : List Char} {ms : Counter} {M : List Byte}
    (hms : millis params T = .ok ms) (hp : s.pending = none) (hb : s.busy = false) (he : s.err = 0#4)
    (hk : s.keyValid = true) (hM : (padMessage M).length < 2 ^ 128) (polls : Nat → Nat) :
    ∃ t j, encryptMessage params T M polls s =
        .ok (hexOf (maskBytes s.key (md5_16 (be128 ms)) 0 (padMessage M)), t) ∧
      t.MessageAt s.key (md5_16 (be128 ms)) j := by
  obtain ⟨u, hu, hopen⟩ := startMessage_eq hp hb he hk ms polls
  obtain ⟨t, j, ht, hlast⟩ := cryptMessage_eq hopen hM polls
  refine ⟨t, j, ?_, hlast⟩
  simp only [encryptMessage, hms, hu, ht, liftStop, except_ok_bind]

/-- A decryption gives the bytes, masked, without their trailing zeros (R171, R172). -/
theorem decryptBytes_eq {s : State} {params : HostParams} {T : List Char} {ms : Counter} {C : List Byte}
    (hms : millis params T = .ok ms) (hb : s.busy = false) (he : s.err = 0#4) (hk : s.keyValid = true)
    (hC : C.length < 2 ^ 128) (polls : Nat → Nat) :
    ∃ t, decryptBytes params T C polls s = .ok (strip (maskBytes s.key (md5_16 (be128 ms)) 0 C), t) := by
  obtain ⟨u, hu, hopen⟩ := openMessage_eq hb he hk ms polls
  obtain ⟨t, j, ht, -⟩ := cryptMessage_eq hopen hC polls
  exact ⟨t, by simp only [decryptBytes, hms, hu, ht, liftStop, except_ok_bind]⟩

/-- An encryption that succeeds has found its timestamp to be one. -/
theorem exists_millis_of_encryptMessage {s t : State} {params : HostParams} {T H : List Char} {M : List Byte}
    {polls : Nat → Nat} (h : encryptMessage params T M polls s = .ok (H, t)) : ∃ ms, millis params T = .ok ms := by
  cases hms : millis params T with
  | ok ms => exact ⟨ms, rfl⟩
  | error e =>
    rw [encryptMessage, hms] at h
    cases h

/-! ### The obligation -/

/-- Settles O56: both directions apply one mask, so the decryption strips the padded message. -/
theorem encryptDecryptRoundTrip : Obligations.EncryptDecryptRoundTrip := by
  intro s t params T H M polls polls' hp hb he hk hM hlast henc
  obtain ⟨ms, hms⟩ := exists_millis_of_encryptMessage henc
  obtain ⟨hdvd, -, hle⟩ := targetLen_spec M.length
  have hlen : (padMessage M).length < 2 ^ 128 := by rw [length_padMessage]; omega
  obtain ⟨t', j, henc', hat⟩ := encryptMessage_eq hms hp hb he hk hlen polls
  rw [henc'] at henc
  cases henc
  obtain ⟨u, hu⟩ := decryptBytes_eq (C := maskBytes s.key (md5_16 (be128 ms)) 0 (padMessage M)) hms hat.busy hat.err
    hat.keyValid (by rwa [length_maskBytes]) polls'
  rw [hat.key_eq, maskBytes_maskBytes, strip_padMessage, (strip_eq_self_iff M).2 hlast] at hu
  have hwhole : (maskBytes s.key (md5_16 (be128 ms)) 0 (padMessage M)).length % 16 = 0 := by
    rw [length_maskBytes, length_padMessage]
    exact Nat.mod_eq_zero_of_dvd hdvd
  exact ⟨u, by rw [decryptMessage, unhex_hexOf hwhole, except_ok_bind, hu]⟩

end Sys2Proof.Machine
end
